-- ==== Sys2Proof/Word.lean ====
section
/-! DEFINITION. The number types of the part: bytes, common time, sets of stations. -/

namespace Sys2Proof

/-- One cell's data, and one byte of the host port (12, R179). -/
abbrev Byte := BitVec 8

/-- Common time: an unsigned 64-bit count of ns, all arithmetic modulo 2^64 (R41). -/
abbrev Time := BitVec 64

/-- A station number, 0 to 15 (R3). -/
abbrev Station := Fin 16

/-- A set of stations as the 16-position map of R179: station `n` is bit `n`. -/
abbrev StationSet := BitVec 16

/-- A trigger output TRIG0 to TRIG3 or a capture input CAP0 to CAP3. -/
abbrev Channel := Fin 4

end Sys2Proof
end

