-- ==== Sys2Proof/Syntax.lean ====
section
/-! DEFINITION. The commands of the block: one constructor per row of spec/opcode_table.json, with the
operands each row takes from the outside. -/

namespace Sys2Proof

/-- A level of TLINE (R1): dominant is low and logic 0, recessive is high and logic 1. -/
inductive Level where
  | dominant
  | recessive
deriving DecidableEq, Repr

/-- The decoded speed class straps (R3). -/
inductive SpeedClass where
  | a
  | b
  | c
  | invalid
deriving DecidableEq, Repr

/-- What the strap pins STN3-STN0 and SPD1-SPD0 show at a sample (R3). -/
structure StrapPins where
  stn : BitVec 4
  spd : BitVec 2
deriving DecidableEq, Repr

/-- One edge on the host port's input pins (R168). A rising edge of SCK carries the level of MOSI. -/
inductive SpiEdge where
  | csFall
  | sckRise (mosi : Bool)
  | sckFall
  | csRise
deriving DecidableEq, Repr

/-- The readings of the input pins in one REFCLK period, each through its synchroniser.
`line` is TLINE as the other stations and the pull-up make it; the own driver is applied by the model (R1).
`driverFails` says that the own driver does not work in the period (R1).
`cap` holds the capture inputs, bit `i` for CAP`i`, 1 for high (R150).
`spi` lists the host port's edges of the period in their order (R168). -/
structure Pins where
  line : Level
  driverFails : Bool
  cap : BitVec 4
  spi : List SpiEdge
deriving DecidableEq, Repr

/-- The name of an action across all stations (R112): owner station and sequence. -/
structure ActionId where
  owner : Station
  seq : BitVec 8
deriving DecidableEq, Repr

/-- The order, left to the world, of the STATE_CHANGED report of an entry to FAULT and the Action Protocol's
reports of the same entry (R108). -/
inductive FaultOrder where
  | stateFirst
  | protocolFirst
deriving DecidableEq, Repr

/-- The three parts of a merge yield whose reports may stand in any order (R87, R101): the consequences of the
left notices, the discard with MERGE_DROPPED, and the move with STATE_CHANGED. -/
inductive YieldOrder where
  | noticesDiscardMove
  | noticesMoveDiscard
  | discardNoticesMove
  | discardMoveNotices
  | moveNoticesDiscard
  | moveDiscardNotices
deriving DecidableEq, Repr

/-- The orders that a close leaves to the world: the order in which the peers are judged and left notices of a yield
are handed (stations not listed follow in ascending order), and the order of the yield's parts. -/
structure CloseOrder where
  stations : List Station
  yield : YieldOrder
deriving DecidableEq, Repr

/-- The commands, one per row of spec/opcode_table.json. The fourteen host commands and `badCommand` take the
transaction that the host port holds (R168, R169); an event row takes what State holds. -/
inductive Instr where
  /-- POWER_ON_RESET (R93): every block at its power-on values, the straps sampled at its end. -/
  | powerOnReset (pins : StrapPins)
  /-- RESET_N (R3): the release of RESET_N. -/
  | resetN (pins : StrapPins)
  /-- BAD_COMMAND (R169): a transaction whose first byte is no command code. -/
  | badCommand
  /-- NOP (R170). -/
  | nop
  /-- CONFIGURE (R173). -/
  | configure
  /-- START (R95). -/
  | start
  /-- STOP (R105). -/
  | stop
  /-- LEAVE (R102). -/
  | leave
  /-- READ_TIME (R175). -/
  | readTime
  /-- READ_STATUS (R176). -/
  | readStatus
  /-- READ_PEER (R70). -/
  | readPeer
  /-- READ_ACTION (R129). -/
  | readAction
  /-- PROPOSE (R130). -/
  | propose
  /-- SCHEDULE (R117). -/
  | schedule
  /-- CANCEL (R142). -/
  | cancel
  /-- TAKE_REPORT (R163). -/
  | takeReport
  /-- TAKE_CAPTURE (R156). -/
  | takeCapture
  /-- LINE_QUIET (R6). -/
  | lineQuiet
  /-- LINE_STUCK (R7). -/
  | lineStuck (order : FaultOrder)
  /-- ACCESS (R25). -/
  | access
  /-- FRAME_START (R26). -/
  | frameStart
  /-- FALSE_START (R10). -/
  | falseStart (order : FaultOrder)
  /-- STOP_ERROR (R12). -/
  | stopError (order : FaultOrder)
  /-- GAP_EXPIRY (R13). -/
  | gapExpiry (order : FaultOrder)
  /-- ARBITRATION_LOST (R28). -/
  | arbitrationLost
  /-- COLLISION (R35). -/
  | collision (order : FaultOrder)
  /-- DRIVER_FAILURE (R36). -/
  | driverFailure (order : FaultOrder)
  /-- CHECK_COMPLETE (R34). -/
  | checkComplete
  /-- FRAME_COMPLETED (R33). -/
  | frameCompleted
  /-- SYNC_ACCEPTED (R59). -/
  | syncAccepted (order : FaultOrder)
  /-- LEAVE_ACCEPTED (R63). -/
  | leaveAccepted (order : FaultOrder)
  /-- PROPOSE_ACCEPTED (R137). -/
  | proposeAccepted (order : FaultOrder)
  /-- COMMIT_ACCEPTED (R138). -/
  | commitAccepted (order : FaultOrder)
  /-- CANCEL_ACCEPTED (R139). -/
  | cancelAccepted (order : FaultOrder)
  /-- MARK_ACCEPTED (R155). -/
  | markAccepted (order : FaultOrder)
  /-- LISTEN_TIMEOUT (R97). -/
  | listenTimeout
  /-- ROUND_START (R73). -/
  | roundStart
  /-- ROUND_CLOSE (R79). -/
  | roundClose (order : CloseOrder)
  /-- STEP_NOTICE (R47). `steppedFirst` says whether STEPPED stands before the late firings' reports. -/
  | stepNotice (steppedFirst : Bool)
  /-- ACTION_DUE (R116): the next firing of the period, in due list order. -/
  | actionDue
  /-- PULSE_END (R120) of one trigger output. -/
  | pulseEnd (output : Channel)
  /-- DEADLINE_EVENT (R115) of one entry. -/
  | deadlineEvent (id : ActionId)
  /-- FOLLOW_UP_DEADLINE (R135) of one entry. -/
  | followUpDeadline (id : ActionId)
  /-- CAPTURE_EDGE (R151): the next admitted edge of the period, in ascending order of input. -/
  | captureEdge
  /-- COMMON_TIME_ADVANCE (R42): the boundary of a REFCLK period, with the readings of the period that begins. -/
  | commonTimeAdvance (pins : Pins)
  /-- RESET_N_ASSERTED (R167): RESET_N falls. -/
  | resetNAsserted
  /-- RECEIVED_FRAME_END (R29). -/
  | receivedFrameEnd
  /-- LENGTH_ABOVE_24 (R29). -/
  | lengthAbove24
deriving DecidableEq, Repr

end Sys2Proof
end

