-- ==== Sys2Proof/Decode.lean ====
section
/-! DEFINITION. Reading commands from words: no row of spec/opcode_table.json has bits, so no word spells a command. -/

namespace Sys2Proof

/-- The command that a word spells by the table's bits: none, since every row's "fields" is empty. The host port's command codes
(12.3) are read from the transaction's bits by the commands themselves. -/
def decodeTableWord (_nbits _w : Nat) : Option Instr := none

end Sys2Proof
end

