-- ==== Sys2Proof/Config.lean ====
section
/-! DEFINITION. The one value that the spec leaves open, as a constant without a body. -/

namespace Sys2Proof

/-- FREE VALUE (DESIGN CHOICE, notes/assumptions/18.md). The two-byte skipped field of ACTION_FIRED (R118, R179) at a firing that
skips `n` occurrences with `n` above 65,535: the spec states the entry's own saturation (R122) and no value of the report. -/
opaque Config.skippedAbove16 (n : Nat) : BitVec 16

end Sys2Proof
end

