-- ==== Sys2Proof/Machine/State.lean ====
section
/-! DEFINITION. The machine's state: one record per block of the overview's table (00, 0.4), and the values after reset. -/

namespace Sys2Proof.Machine

/-- The station states (R93, R94). -/
inductive StationState where
  | off
  | listen
  | joining
  | synced
  | holdover
  | leaving
  | fault
deriving DecidableEq, Repr

/-- The fault causes (R107). -/
inductive FaultCause where
  | noFault
  | duplicate
  | line
deriving DecidableEq, Repr

/-- The causes of STATE_CHANGED (R94). -/
inductive MoveCause where
  | hostStart
  | hostStop
  | hostLeave
  | adopted
  | founded
  | qualified
  | merged
  | holdoverEntered
  | peerReturned
  | left
  | leaveFailed
  | duplicate
  | line
deriving DecidableEq, Repr

/-- The sampled straps (R3). -/
structure Straps where
  number : Station
  speed : SpeedClass
deriving DecidableEq, Repr

/-! ### Line Interface (chapter 1) -/

/-- The line condition (R6, R7). -/
inductive LineCondition where
  | quiet
  | active
  | stuck
deriving DecidableEq, Repr

/-- The reception phase (R8). -/
inductive Phase where
  | idle
  | settle
  | hunt
  | cell
  | gap
deriving DecidableEq, Repr

/-- What the Line Interface hands to the Frame Engine in a period, with the Frame Engine's reading of it.
A period has at most one finding; it stands until the event of that row is taken or the frame ends. -/
inductive Finding where
  /-- a falling edge found in HUNT (R9) -/
  | frameStart
  /-- a recessive bit 0 sample (R10); `driven` when the own pattern drove the bit (R15, R36) -/
  | falseStart (driven : Bool)
  /-- a released data bit of cell 0 or 1 of an own frame read dominant (R28) -/
  | lostBit
  /-- a released data bit of cell 2 to N + 4 of an own frame read dominant (R35) -/
  | collidedBit
  /-- a driven data bit, or the own ack slot, read recessive (R36) -/
  | deadBit
  /-- a dominant stop bit sample (R12) -/
  | stopError
  /-- the gap count reached 3 × P (R13) -/
  | gapExpired
  /-- the second check cell of an own frame delivered (R34) -/
  | ownCheckDone
  /-- ack cell 1 of an own frame delivered (R33) -/
  | ownFrameDone
  /-- the second check cell of a received frame delivered: the acceptance instant (R29) -/
  | acceptance
  /-- ack cell 1 of a received frame delivered (R29) -/
  | receivedDone
  /-- a length cell above 24 delivered in a received frame (R29) -/
  | tooLong
deriving DecidableEq, Repr

/-- The Line Interface's state (1.3). The drive pattern has bit `i` set when bit `i` of the cell is driven dominant (R14). -/
structure Line where
  condition : LineCondition
  quietCount : Nat
  stuckCount : Nat
  phase : Phase
  edge : Nat
  bitPos : Option Nat
  shift : List Bool
  gapCount : Nat
  pattern : Option (BitVec 10)
  driver : Bool
  reading : Level
  finding : Option Finding
deriving DecidableEq, Repr

/-! ### Frame Engine (chapter 2) -/

/-- The kinds of frames (R18). -/
inductive FrameKind where
  | sync
  | commit
  | cancel
  | propose
  | mark
  | leave
deriving DecidableEq, Repr

/-- The sources of needs (R22). -/
inductive NeedSource where
  | roundEngine
  | entry (id : ActionId)
  | markQueue
  | controller
deriving DecidableEq, Repr

/-- A need: a request to transmit one frame (R22). Ages rise in the order of raising. -/
structure Need where
  kind : FrameKind
  source : NeedSource
  age : Nat
deriving DecidableEq, Repr

/-- The role of the frame in flight (2.2). A transmit record holds the need it serves and the header and payload cells
built at selection (R27). -/
inductive FrameRole where
  | transmit (need : Need) (out : List Byte)
  | receive
deriving DecidableEq, Repr

/-- The frame in flight (2.2). Kind, sender and length are the first three of `cells`. `acks` says that this station acks the
frame it receives (R32). -/
structure Frame where
  role : FrameRole
  cells : List (Byte × Nat)
  crc : BitVec 16
  checkPoint : Bool
  ackSet : StationSet
  acks : Bool
deriving DecidableEq, Repr

/-- The Frame Engine's state (2.2). `needs` stands in the order of raising. -/
structure FrameEngine where
  needs : List Need
  nextAge : Nat
  frame : Option Frame
  run : Nat
deriving DecidableEq, Repr

/-! ### Time Base (chapter 3) -/

/-- The causes of a step (R46). -/
inductive StepCause where
  | adopt
  | merge
deriving DecidableEq, Repr

/-- A step: a signed amount in ns and its cause (R46). -/
structure TimeStep where
  amount : Int
  cause : StepCause
deriving DecidableEq, Repr

/-- The frame-start latch: a stamp and its edge period (R51). -/
structure Latch where
  stamp : Time
  edge : Nat
deriving DecidableEq, Repr

/-- The step notice of the current period (R47): the step applied at the boundary before it, and whether the notice is still
to be taken. -/
structure StepNotice where
  step : TimeStep
  outstanding : Bool
deriving DecidableEq, Repr

/-- The Time Base's state (3.1). -/
structure TimeBase where
  time : Time
  fraction : Nat
  trim : Int
  slew : Int
  running : Bool
  latch : Option Latch
  pendingStep : Option TimeStep
  notice : Option StepNotice
deriving DecidableEq, Repr

/-! ### Peer Table (chapter 4) -/

/-- The sender states a SYNC may carry (R58). -/
inductive SenderState where
  | joining
  | synced
  | holdover
deriving DecidableEq, Repr

/-- One entry of the Peer Table (4.1). -/
structure Peer where
  present : Bool
  reported : Option SenderState
  member : Bool
  suspect : Bool
  lastRound : Option (BitVec 16)
  sample : Option Int
  count : Option Nat
  anchor : Option Station
  missRun : Nat
  outlierRun : Nat
  goodRun : Nat
  disagreeing : Bool
deriving DecidableEq, Repr

/-- The causes of PEER_DROPPED (10.2). -/
inductive DropCause where
  | misses
  | leave
  | suspect
deriving DecidableEq, Repr

/-! ### Round Engine and Station Controller (chapters 5 and 6) -/

/-- The Round Engine's state (5.1). -/
structure RoundEngine where
  active : Bool
  round : Nat
  windowOpen : Bool
  samples : List (Station × Int)
  syncSent : Bool
  joinRun : Nat
  peered : Bool
  lastCorrection : Int
deriving DecidableEq, Repr

/-- The Station Controller's state (6.1). -/
structure Controller where
  state : StationState
  faultCause : FaultCause
  listenTimer : Option Time
  leaveFailures : Nat
  seq : BitVec 8
deriving DecidableEq, Repr

/-! ### Action Table and Action Protocol (chapters 7 and 8) -/

/-- The scope of an action (7.1): SHARED or LOCAL. -/
inductive Scope where
  | shared
  | loc
deriving DecidableEq, Repr

/-- The role of an entry (7.1). -/
inductive ActionRole where
  | owner
  | member
deriving DecidableEq, Repr

/-- The entry states (7.1). -/
inductive EntryState where
  | pending
  | committing
  | held
  | armed
  | cancelling
deriving DecidableEq, Repr

/-- The action edges (7.1). -/
inductive ActionEdge where
  | rise
  | fall
  | pulse
  | toggle
deriving DecidableEq, Repr

/-- The report modes (7.1): EACH or END. -/
inductive ReportMode where
  | each
  | atEnd
deriving DecidableEq, Repr

/-- Why an owner entry is in CANCELLING (8.1). -/
inductive CancelReason where
  | host
  | tries
deriving DecidableEq, Repr

/-- The two marks of a CANCELLING owner entry (8.1). -/
structure CancelMarks where
  reason : CancelReason
  pointReached : Bool
deriving DecidableEq, Repr

/-- One entry of the Action Table (7.1). `marks` and `finalAwaited` are the Action Protocol's (8.1, R135, R146). -/
structure Entry where
  id : ActionId
  scope : Scope
  role : ActionRole
  state : EntryState
  output : Channel
  edge : ActionEdge
  width : Option (BitVec 16)
  due : Time
  period : BitVec 32
  count : BitVec 16
  fired : Nat
  skipped : Nat
  mode : ReportMode
  required : Option StationSet
  acked : Option StationSet
  armedSet : Option StationSet
  tries : Option Nat
  marks : Option CancelMarks
  finalAwaited : Bool
deriving DecidableEq, Repr

/-- The record of one trigger output (7.1): a level, high when `high`, and a pulse end. -/
structure Output where
  high : Bool
  pulseEnd : Option Time
deriving DecidableEq, Repr

/-- The Action Table's state: the entries in due list order (R114), the outputs' records, the levels on the pins in the
current period (R119), and what has happened in it: the ids that have fired, since an entry fires at most once in a period (R116); the
outputs that a firing has reached, whose pulse-end stage lies behind (R120); the ids whose HELD copy a PROPOSE has replaced while its
deadline event was still to be taken (R149); and the own proposals that have taken the completed outcome of a PROPOSE (R149). -/
structure ActionTable where
  entries : List Entry
  outputs : Vector Output 4
  trigPins : Vector Bool 4
  firedNow : List ActionId
  firedOutputs : List Channel
  expiring : List ActionId
  proposedNow : List ActionId
deriving DecidableEq, Repr

/-! ### Capture Unit (chapter 9) -/

/-- The direction of a captured edge (9.1). -/
inductive CaptureEdge where
  | rise
  | fall
deriving DecidableEq, Repr

/-- The edge settings of a capture input (9.1). -/
inductive EdgeSetting where
  | rise
  | fall
  | both
deriving DecidableEq, Repr

/-- The source of a capture record (9.1): LOCAL, or the sender's number. -/
inductive CaptureSource where
  | loc
  | remote (station : Station)
deriving DecidableEq, Repr

/-- A capture record (9.1). -/
structure CaptureRecord where
  source : CaptureSource
  input : Channel
  edge : CaptureEdge
  time : Time
  unsynced : Bool
  holdover : Bool
  notShared : Bool
  loss : Nat
deriving DecidableEq, Repr

/-- A mark (9.1). -/
structure Mark where
  input : Channel
  edge : CaptureEdge
  time : Time
  unsynced : Bool
  holdover : Bool
deriving DecidableEq, Repr

/-- The Capture Unit's state (9.1). `edges` holds, per input, the admitted edge of the current period that is still to be taken. -/
structure CaptureUnit where
  sampled : Vector (Option Bool) 4
  edges : Vector (Option CaptureEdge) 4
  records : List CaptureRecord
  marks : List Mark
deriving DecidableEq, Repr

/-! ### Report Queue (chapter 10) -/

/-- The flags of ACTION_FIRED (R118). -/
structure FiringFlags where
  late : Bool
  holdover : Bool
  unsynced : Bool
deriving DecidableEq, Repr

/-- The causes of PROPOSAL_FAILED (10.2). -/
inductive FailCause where
  | tries
  | late
  | fault
deriving DecidableEq, Repr

/-- The causes of CANCEL_LATE (10.2). -/
inductive LateCause where
  | deadline
  | fault
deriving DecidableEq, Repr

/-- The kinds of reports with their fields (10.2). -/
inductive ReportKind where
  | stateChanged (old new : StationState) (cause : MoveCause)
  | stepped (amount : Int) (cause : StepCause)
  | rateLimit
  | peerJoined (station : Station)
  | peerDropped (station : Station) (cause : DropCause)
  | peerRestored (station : Station)
  | actionArmed (id : ActionId) (armed : StationSet)
  | commitIncomplete (id : ActionId) (missing : StationSet)
  | actionFired (id : ActionId) (occurrence : Nat) (lateness : Time) (flags : FiringFlags) (skipped : BitVec 16)
  | actionDone (id : ActionId)
  | actionCancelled (id : ActionId)
  | cancelIncomplete (id : ActionId) (missing : StationSet)
  | cancelLate (id : ActionId) (cause : LateCause)
  | proposalFailed (id : ActionId) (missing : StationSet) (cause : FailCause)
  | heldExpired (id : ActionId)
  | heldDropped (id : ActionId)
  | mergeDropped (number : Nat)
  | idClash (id : ActionId)
deriving DecidableEq, Repr

/-- A report record (R159). DESIGN CHOICE (notes/assumptions/43.md): it holds no fault cause, against the words of R93. -/
structure Report where
  kind : ReportKind
  time : Time
  state : StationState
  loss : Nat
deriving DecidableEq, Repr

/-- The Report Queue's state (10.1). `irq` is the setting applied to IRQ_N in the current period, true for asserted. -/
structure ReportQueue where
  records : List Report
  irq : Bool
deriving DecidableEq, Repr

/-! ### Host Port (chapter 11) -/

/-- The status codes (R171). -/
inductive Status where
  | ok
  | badCommand
  | badLength
  | badState
  | badArg
  | badConfig
  | badStrap
  | notSynced
  | tooSoon
  | tableFull
  | localFull
  | notOwner
  | noSuchAction
  | tooLate
  | empty
deriving DecidableEq, Repr

/-- The result buffer: a status code and data bytes (11.1). -/
structure Result where
  status : Status
  data : List Byte
deriving DecidableEq, Repr

/-- The settings of one capture input (R172). -/
structure CaptureSetting where
  edge : EdgeSetting
  share : Bool
deriving DecidableEq, Repr

/-- A configuration record (R172). The step threshold is in µs, the sync tolerance and the line delay compensation in ns, the
commit margin in ms, the initial trim in ppb; `idle` has bit `n` set when TRIG`n` idles high. -/
structure ConfigRecord where
  roundCode : Nat
  stepThreshold : Nat
  syncTolerance : Nat
  commitMargin : Nat
  lineDelay : Nat
  initialTrim : Int
  capture : Vector CaptureSetting 4
  idle : BitVec 4
deriving DecidableEq, Repr

/-- The Host Port's state (11.1). `ended` is the transaction that the period's rise of CS_N ended, until it is judged (R169). -/
structure HostPort where
  transaction : Option (List Bool)
  ended : Option (List Bool)
  misoPos : Nat
  result : Result
  store : ConfigRecord
deriving DecidableEq, Repr

/-! ### The whole machine -/

/-- The state of the station. `period` numbers the REFCLK periods, `pins` are the readings of the current one, `inForce` is the
configuration record held from START to OFF (R95), and `pending` is the queue of commands, first in first out. -/
structure State where
  straps : Straps
  resetLow : Bool
  period : Nat
  pins : Pins
  line : Line
  engine : FrameEngine
  base : TimeBase
  peers : Vector Peer 16
  rounds : RoundEngine
  ctl : Controller
  table : ActionTable
  capture : CaptureUnit
  reports : ReportQueue
  port : HostPort
  inForce : Option ConfigRecord
  pending : List Instr
deriving DecidableEq, Repr

/-- Why a step may stop with a fault. There is no constructor: the spec gives every command an effect, and the station state FAULT
is an ordinary state (R107). -/
inductive Fault where
deriving DecidableEq, Repr

/-- Why a command may have no meaning. -/
inductive Refusal where
  /-- Raised by `exec` alone, for a row whose meaning is not written yet; no row is in that case. Safe: the machine stops. -/
  | notModelled (mnemonic : String)
deriving DecidableEq, Repr

/-! ### Values after reset -/

/-- The default configuration record (R172, R174). -/
def ConfigRecord.default : ConfigRecord where
  roundCode := 3
  stepThreshold := 100
  syncTolerance := 250
  commitMargin := 5
  lineDelay := 0
  initialTrim := 0
  capture := Vector.replicate 4 ⟨.rise, false⟩
  idle := 0

/-- An absent peer entry (R57). -/
def Peer.absent : Peer where
  present := false
  reported := none
  member := false
  suspect := false
  lastRound := none
  sample := none
  count := none
  anchor := none
  missRun := 0
  outlierRun := 0
  goodRun := 0
  disagreeing := false

/-- The Line Interface after power-on and after STOP (R5). The edge period, the reading and the finding are the model's
(notes/assumptions/2.md). -/
def Line.idleLine : Line where
  condition := .active
  quietCount := 0
  stuckCount := 0
  phase := .idle
  edge := 0
  bitPos := none
  shift := []
  gapCount := 0
  pattern := none
  driver := false
  reading := .recessive
  finding := none

/-- The pins of State.reset's period: a recessive line, a working driver, low inputs, no SPI edge
(DESIGN CHOICE, notes/assumptions/2.md). -/
def Pins.atReset : Pins where
  line := .recessive
  driverFails := false
  cap := 0
  spi := []

/-- The machine right after reset (R5, R21, R45, R57, R72, R93, R123, R124, R157, R165, R167, R174). The straps are pins, so their
values are a DESIGN CHOICE (notes/assumptions/1.md): station 0, class A. -/
def State.reset : State where
  straps := ⟨0, .a⟩
  resetLow := false
  period := 0
  pins := Pins.atReset
  line := Line.idleLine
  engine := ⟨[], 0, none, 0⟩
  base := ⟨0, 0, 0, 0, false, none, none, none⟩
  peers := Vector.replicate 16 Peer.absent
  rounds := ⟨false, 0, false, [], false, 0, false, 0⟩
  ctl := ⟨.off, .noFault, none, 0, 0⟩
  table := ⟨[], Vector.replicate 4 ⟨false, none⟩, Vector.replicate 4 false, [], [], [], []⟩
  capture := ⟨Vector.replicate 4 none, Vector.replicate 4 none, [], []⟩
  reports := ⟨[], false⟩
  port := ⟨none, none, 0, ⟨.ok, []⟩, ConfigRecord.default⟩
  inForce := none
  pending := []

end Sys2Proof.Machine
end

