-- ==== Sys2Proof/Machine/Flags.lean ====
section
/-! DEFINITION. The flags that the part computes: the state flags of firings and capture records, line driver enable. -/

namespace Sys2Proof.Machine

/-- The station states in which the line driver is enabled (R2). -/
def StationState.drives : StationState → Bool
  | .joining => true
  | .synced => true
  | .holdover => true
  | .leaving => true
  | .off => false
  | .listen => false
  | .fault => false

/-- The station states in which rounds are kept and frames are handed to their blocks (R30, R72). -/
def StationState.takesPart : StationState → Bool
  | .joining => true
  | .synced => true
  | .holdover => true
  | .off => false
  | .listen => false
  | .leaving => false
  | .fault => false

/-- The UNSYNCED flag of firings and capture records (R118, R151): LISTEN, JOINING and FAULT. -/
def StationState.unsynced : StationState → Bool
  | .listen => true
  | .joining => true
  | .fault => true
  | .off => false
  | .synced => false
  | .holdover => false
  | .leaving => false

/-- The HOLDOVER flag of firings and capture records (R118, R151). -/
def StationState.isHoldover (s : StationState) : Bool := s == .holdover

/-- The flags of a firing in a station state (R118). -/
def firingFlags (late : Bool) (s : StationState) : FiringFlags := ⟨late, s.isHoldover, s.unsynced⟩

/-- The station states in which an admitted edge makes a record (R151). -/
def StationState.captures : StationState → Bool
  | .off => false
  | .leaving => false
  | .listen => true
  | .joining => true
  | .synced => true
  | .holdover => true
  | .fault => true

/-- The driver of the line is enabled: the station state drives (R2) and RESET_N is not low (R2, R167). -/
def State.driverEnabled (s : State) : Bool := s.ctl.state.drives && !s.resetLow

/-- The magnitude of an offset, a residual or a correction exceeds a limit. -/
def exceeds (v : Int) (limit : Nat) : Bool := decide (limit < v.natAbs)

end Sys2Proof.Machine
end

