-- ==== Sys2Proof/Machine/Operands.lean ====
section
/-! DEFINITION. Formats (chapter 12, R179): codes, byte order, the layouts of host arguments, host results and frame payloads. -/

namespace Sys2Proof.Machine

/-! ### Bytes -/

/-- The stations in ascending order. -/
def allStations : List Station := [0, 1, 2, 3, 4, 5, 6, 7, 8, 9, 10, 11, 12, 13, 14, 15]

/-- The channels in ascending order. -/
def allChannels : List Channel := [0, 1, 2, 3]

/-- `k` bytes of a value, most significant first (R179). -/
def beBytes : Nat → Nat → List Byte
  | 0, _ => []
  | k + 1, v => BitVec.ofNat 8 (v / 256 ^ k) :: beBytes k v

/-- The value of bytes that stand most significant first (R179). -/
def beNat (bytes : List Byte) : Nat := bytes.foldl (fun a b => 256 * a + b.toNat) 0

/-- `k` bytes of a signed value in two's complement (R179). -/
def signedBytes (k : Nat) (v : Int) : List Byte := beBytes k (BitVec.ofInt (8 * k) v).toNat

/-- The signed value of bytes in two's complement of their full width (R179). -/
def beInt (bytes : List Byte) : Int := (BitVec.ofNat (8 * bytes.length) (beNat bytes)).toInt

/-- The field of `size` bytes at `offset` of a payload, an argument list or a result (R179). -/
def field (offset size : Nat) (bytes : List Byte) : Nat := beNat ((bytes.drop offset).take size)

/-- One flag bit at a position of a byte. -/
def flagBit (position : Nat) (flag : Bool) : Nat := if flag then 2 ^ position else 0

/-- The bytes that bits spell, eight by eight from the first, most significant bit first, and how many bits are left over (R168). -/
def packBytes : List Bool → List Byte × Nat
  | a :: b :: c :: d :: e :: f :: g :: h :: rest =>
    let r := packBytes rest
    (BitVec.ofNat 8 ([a, b, c, d, e, f, g, h].foldl (fun n x => 2 * n + x.toNat) 0) :: r.1, r.2)
  | bits => ([], bits.length)

/-- The bits of a byte, most significant first (R179). -/
def byteBits (b : Byte) : List Bool := [0, 1, 2, 3, 4, 5, 6, 7].map b.getMsbD

/-! ### Sets of stations (0.8, R179) -/

/-- The set that holds one station. -/
def single (n : Station) : StationSet := 1#16 <<< n.val

/-- Membership of a set: bit `n` of the map. -/
def StationSet.has (m : StationSet) (n : Station) : Bool := m.getLsbD n.val

/-- `a` less `b`. -/
def setLess (a b : StationSet) : StationSet := a &&& ~~~b

/-- Every station of `a` is in `b`. -/
def setWithin (a b : StationSet) : Bool := setLess a b == 0

/-- The lowest station number of a set that holds `n` and the stations of the map. -/
def lowestWith (n : Station) (m : StationSet) : Station :=
  (allStations.find? fun k => k == n || StationSet.has m k).getD n

/-! ### Codes (12.1) -/

/-- The station state codes (12.1). -/
def StationState.code : StationState → Nat
  | .off => 0
  | .listen => 1
  | .joining => 2
  | .synced => 3
  | .holdover => 4
  | .leaving => 5
  | .fault => 6

/-- The fault cause codes (12.1). -/
def FaultCause.code : FaultCause → Nat
  | .noFault => 0
  | .duplicate => 1
  | .line => 2

/-- The speed class codes (12.1). -/
def speedCode : SpeedClass → Nat
  | .a => 0
  | .b => 1
  | .c => 2
  | .invalid => 3

/-- The sender state codes of a SYNC: station states 2, 3 and 4 (12.1, R58). -/
def SenderState.code : SenderState → Nat
  | .joining => 2
  | .synced => 3
  | .holdover => 4

/-- The sender state that a code carries, if it is one of the three (R58). -/
def senderState? (code : Nat) : Option SenderState :=
  match code with
  | 2 => some .joining
  | 3 => some .synced
  | 4 => some .holdover
  | _ => none

/-- The action edge codes (12.1). -/
def ActionEdge.code : ActionEdge → Nat
  | .rise => 0
  | .fall => 1
  | .pulse => 2
  | .toggle => 3

/-- The action edge that a code names (12.1). -/
def actionEdge? (code : Nat) : Option ActionEdge :=
  match code with
  | 0 => some .rise
  | 1 => some .fall
  | 2 => some .pulse
  | 3 => some .toggle
  | _ => none

/-- The report mode codes (12.1). -/
def ReportMode.code : ReportMode → Nat
  | .each => 0
  | .atEnd => 1

/-- The report mode that a code names (12.1). -/
def reportMode? (code : Nat) : Option ReportMode :=
  match code with
  | 0 => some .each
  | 1 => some .atEnd
  | _ => none

/-- The entry state codes (12.1). -/
def EntryState.code : EntryState → Nat
  | .pending => 0
  | .committing => 1
  | .held => 2
  | .armed => 3
  | .cancelling => 4

/-- The capture edge codes of records and marks (12.1). -/
def CaptureEdge.code : CaptureEdge → Nat
  | .rise => 1
  | .fall => 2

/-- The capture edge that a code names in a mark (12.1). -/
def captureEdge? (code : Nat) : Option CaptureEdge :=
  match code with
  | 1 => some .rise
  | 2 => some .fall
  | _ => none

/-- The edge setting that a code names in the configuration record (12.5). -/
def edgeSetting? (code : Nat) : Option EdgeSetting :=
  match code with
  | 1 => some .rise
  | 2 => some .fall
  | 3 => some .both
  | _ => none

/-- The kind codes of the line (R18). -/
def FrameKind.code : FrameKind → Byte
  | .sync => 0x11
  | .commit => 0x22
  | .cancel => 0x24
  | .propose => 0x33
  | .mark => 0x44
  | .leave => 0x5A

/-- The kind that a kind cell names (R18). -/
def frameKind? (code : Byte) : Option FrameKind :=
  [FrameKind.sync, .commit, .cancel, .propose, .mark, .leave].find? fun k => k.code == code

/-- The payload lengths (R18). -/
def FrameKind.length : FrameKind → Nat
  | .sync => 14
  | .commit => 3
  | .cancel => 1
  | .propose => 18
  | .mark => 10
  | .leave => 0

/-- The status codes (12.3). -/
def Status.code : Status → Nat
  | .ok => 0x00
  | .badCommand => 0x01
  | .badLength => 0x02
  | .badState => 0x03
  | .badArg => 0x04
  | .badConfig => 0x05
  | .badStrap => 0x06
  | .notSynced => 0x07
  | .tooSoon => 0x08
  | .tableFull => 0x09
  | .localFull => 0x0A
  | .notOwner => 0x0B
  | .noSuchAction => 0x0C
  | .tooLate => 0x0D
  | .empty => 0x0E

/-- The command codes (12.3). -/
def commandCodes : List Byte :=
  [0x00, 0x01, 0x02, 0x03, 0x04, 0x10, 0x11, 0x12, 0x13, 0x20, 0x21, 0x22, 0x30, 0x31]

/-- The cause codes of STATE_CHANGED (12.4). -/
def MoveCause.code : MoveCause → Nat
  | .hostStart => 0
  | .hostStop => 1
  | .hostLeave => 2
  | .adopted => 3
  | .founded => 4
  | .qualified => 5
  | .merged => 6
  | .holdoverEntered => 7
  | .peerReturned => 8
  | .left => 9
  | .leaveFailed => 10
  | .duplicate => 11
  | .line => 12

/-- The cause codes of STEPPED (12.4). -/
def StepCause.code : StepCause → Nat
  | .adopt => 0
  | .merge => 1

/-- The cause codes of PEER_DROPPED (12.4). -/
def DropCause.code : DropCause → Nat
  | .misses => 0
  | .leave => 1
  | .suspect => 2

/-- The cause codes of CANCEL_LATE (12.4). -/
def LateCause.code : LateCause → Nat
  | .deadline => 0
  | .fault => 1

/-- The cause codes of PROPOSAL_FAILED (12.4). -/
def FailCause.code : FailCause → Nat
  | .tries => 0
  | .late => 1
  | .fault => 2

/-! ### Straps (R3) -/

/-- The speed class of the straps SPD1-SPD0 (R3). -/
def speedOf (spd : BitVec 2) : SpeedClass :=
  match spd.toNat with
  | 0 => .a
  | 1 => .b
  | 2 => .c
  | _ => .invalid

/-- The strap sample (R3). -/
def sampleStraps (p : StrapPins) : Straps := ⟨p.stn.toFin, speedOf p.spd⟩

/-- The bit time P in REFCLK periods (R3). An invalid class has no bit time; its Line Interface stays in IDLE (R5). -/
def bitTime : SpeedClass → Nat
  | .a => 100
  | .b => 25
  | .c => 10
  | .invalid => 0

/-! ### The configuration record (12.5, R172) -/

/-- The round length in ms of a round length code (R71). A record with another code is never stored (R173). -/
def roundMs (code : Nat) : Nat :=
  match code with
  | 0 => 10
  | 1 => 20
  | 2 => 50
  | 3 => 100
  | 4 => 200
  | 5 => 500
  | _ => 1000

/-- The round length L in ns (R71). -/
def ConfigRecord.roundLength (c : ConfigRecord) : Nat := roundMs c.roundCode * 1000000

/-- The step threshold in ns (R173). -/
def ConfigRecord.thresholdNs (c : ConfigRecord) : Nat := c.stepThreshold * 1000

/-- The commit margin in ns (R115). -/
def ConfigRecord.marginNs (c : ConfigRecord) : Time := BitVec.ofNat 64 (c.commitMargin * 1000000)

/-- The settings of a capture byte: bits 1-0 edge, bit 4 share, every other bit 0 (12.5). -/
def captureSetting? (b : Byte) : Option CaptureSetting :=
  if b &&& 0xEC == 0 then (edgeSetting? (b.toNat % 4)).map fun e => ⟨e, b.getLsbD 4⟩ else none

/-- The record that CONFIGURE's 17 argument bytes carry, if its capture and idle bytes hold named values (12.5). -/
def decodeConfig (a : List Byte) : Option ConfigRecord :=
  match captureSetting? (a.getD 12 0), captureSetting? (a.getD 13 0), captureSetting? (a.getD 14 0),
      captureSetting? (a.getD 15 0) with
  | some c0, some c1, some c2, some c3 =>
    if field 16 1 a < 16 then
      some
        { roundCode := field 0 1 a
          stepThreshold := field 1 2 a
          syncTolerance := field 3 2 a
          commitMargin := field 5 1 a
          lineDelay := field 6 2 a
          initialTrim := beInt ((a.drop 8).take 4)
          capture := #v[c0, c1, c2, c3]
          idle := BitVec.ofNat 4 (field 16 1 a) }
    else none
  | _, _, _, _ => none

/-- The ranges of R172 and the two joint conditions of R173, for the sampled speed class. -/
def ConfigRecord.valid (speed : SpeedClass) (c : ConfigRecord) : Bool :=
  decide (c.roundCode ≤ 6) && decide (1 ≤ c.stepThreshold ∧ c.stepThreshold ≤ 1000)
    && decide (100 ≤ c.syncTolerance ∧ c.syncTolerance ≤ 10000) && decide (1 ≤ c.commitMargin ∧ c.commitMargin ≤ 255)
    && decide (c.lineDelay ≤ 2000) && decide (-200000 ≤ c.initialTrim ∧ c.initialTrim ≤ 200000)
    && decide (c.syncTolerance < c.thresholdNs) && !(speed == .a && decide (c.roundCode ≤ 1))

/-! ### Action arguments (12.2, 12.3) -/

/-- The fields of an action as PROPOSE, SCHEDULE or a PROPOSE frame carry them, before any check. -/
structure ActionArgs where
  output : Nat
  edge : Nat
  width : BitVec 16
  due : Time
  period : BitVec 32
  count : BitVec 16
  mode : Nat
deriving DecidableEq, Repr

/-- The 19 argument bytes of PROPOSE and SCHEDULE (12.3). -/
def decodeActionArgs (a : List Byte) : ActionArgs where
  output := field 0 1 a
  edge := field 1 1 a
  width := BitVec.ofNat 16 (field 2 2 a)
  due := BitVec.ofNat 64 (field 4 8 a)
  period := BitVec.ofNat 32 (field 12 4 a)
  count := BitVec.ofNat 16 (field 16 2 a)
  mode := field 18 1 a

/-- The fields of a PROPOSE frame's payload (12.2): output, edge and report mode share the second byte. -/
def decodeProposePayload (p : List Byte) : ActionArgs where
  output := field 1 1 p % 4
  edge := field 1 1 p / 4 % 4
  width := BitVec.ofNat 16 (field 2 2 p)
  due := BitVec.ofNat 64 (field 4 8 p)
  period := BitVec.ofNat 32 (field 12 4 p)
  count := BitVec.ofNat 16 (field 16 2 p)
  mode := field 1 1 p / 16 % 2

/-- The entry that checked fields make, or none where a field check of R117 fails (R130 and R137 make the same checks):
output, edge, width, period, pulse within period, count, report mode. -/
def ActionArgs.entry? (a : ActionArgs) (id : ActionId) (scope : Scope) (role : ActionRole) (state : EntryState) :
    Option Entry :=
  match actionEdge? a.edge, reportMode? a.mode with
  | some edge, some mode =>
    if h : a.output < 4 then
      if (edge = .pulse ∧ a.width = 0)
          ∨ (1 ≤ a.period.toNat ∧ a.period.toNat ≤ 9999)
          ∨ (edge = .pulse ∧ a.period ≠ 0 ∧ a.period.toNat ≤ a.width.toNat * 100)
          ∨ (a.period = 0 ∧ a.count ≠ 1) then none
      else
        some
          { id, scope, role, state, edge, mode
            output := ⟨a.output, h⟩
            width := if edge = .pulse then some a.width else none
            due := a.due
            period := a.period
            count := a.count
            fired := 0
            skipped := 0
            required := none
            acked := none
            armedSet := none
            tries := none
            marks := none
            finalAwaited := false }
    else none
  | _, _ => none

/-! ### Frame payloads (12.2) -/

/-- The payload of a PROPOSE frame of an entry (12.2, R131). -/
def proposePayload (e : Entry) : List Byte :=
  e.id.seq
    :: BitVec.ofNat 8 (e.output.val + 4 * e.edge.code + 16 * e.mode.code)
    :: beBytes 2 (e.width.getD 0).toNat ++ beBytes 8 e.due.toNat ++ beBytes 4 e.period.toNat ++ beBytes 2 e.count.toNat

/-- The payload of a COMMIT frame (12.2, R131). -/
def commitPayload (seq : BitVec 8) (set : StationSet) : List Byte := seq :: beBytes 2 set.toNat

/-- The payload of a MARK frame (12.2, R154). -/
def markPayload (m : Mark) : List Byte :=
  BitVec.ofNat 8 m.input.val
    :: BitVec.ofNat 8 (m.edge.code + flagBit 2 m.unsynced + flagBit 3 m.holdover)
    :: beBytes 8 m.time.toNat

/-- The mark that a MARK payload carries, if it is well formed (R155, 12.1): input 0 to 3, edge code 1 or 2, bits 7-4 of the flag
byte 0. -/
def decodeMark (p : List Byte) : Option Mark :=
  let flags := p.getD 1 0
  match captureEdge? (flags.toNat % 4) with
  | some edge =>
    if h : field 0 1 p < 4 then
      if flags.toNat < 16 then
        some ⟨⟨field 0 1 p, h⟩, edge, BitVec.ofNat 64 (field 2 8 p), flags.getLsbD 2, flags.getLsbD 3⟩
      else none
    else none
  | none => none

/-- The content of a SYNC payload (R75, 12.2). -/
structure SyncContent where
  round : BitVec 16
  sender : SenderState
  count : Nat
  members : StationSet
  refTime : Time
deriving DecidableEq, Repr

/-- The payload of a SYNC frame (12.2, R75). -/
def syncPayload (round : Nat) (state : StationState) (count : Nat) (members : StationSet) (refTime : Time) : List Byte :=
  beBytes 2 (round % 65536) ++ BitVec.ofNat 8 state.code :: BitVec.ofNat 8 count :: beBytes 2 members.toNat
    ++ beBytes 8 refTime.toNat

/-- The content of a SYNC payload, if it is well formed (R58): a sender state of the three and a member count of 1 to 16. -/
def decodeSync (p : List Byte) : Option SyncContent :=
  match senderState? (field 2 1 p) with
  | some sender =>
    if 1 ≤ field 3 1 p ∧ field 3 1 p ≤ 16 then
      some
        { round := BitVec.ofNat 16 (field 0 2 p)
          sender
          count := field 3 1 p
          members := BitVec.ofNat 16 (field 4 2 p)
          refTime := BitVec.ofNat 64 (field 6 8 p) }
    else none
  | none => none

/-! ### Result layouts (12.3, 12.4) -/

/-- An id as two bytes: owner, then sequence (12.4). -/
def idBytes (id : ActionId) : List Byte := [BitVec.ofNat 8 id.owner.val, id.seq]

/-- One byte. -/
def byte1 (n : Nat) : List Byte := [BitVec.ofNat 8 n]

/-- Two bytes of a set map (R179). -/
def setBytes (m : StationSet) : List Byte := beBytes 2 m.toNat

/-- The kind code and the field area of a report before its padding (12.4). -/
def ReportKind.fields : ReportKind → Nat × List Byte
  | .stateChanged old new cause => (0x01, byte1 old.code ++ byte1 new.code ++ byte1 cause.code)
  | .stepped amount cause => (0x02, signedBytes 8 amount ++ byte1 cause.code)
  | .rateLimit => (0x03, [])
  | .peerJoined n => (0x04, byte1 n.val)
  | .peerDropped n cause => (0x05, byte1 n.val ++ byte1 cause.code)
  | .peerRestored n => (0x06, byte1 n.val)
  | .actionArmed id armed => (0x07, idBytes id ++ setBytes armed)
  | .commitIncomplete id missing => (0x08, idBytes id ++ setBytes missing)
  | .actionFired id occurrence lateness flags skipped =>
    (0x09, idBytes id ++ beBytes 2 occurrence ++ beBytes 8 lateness.toNat
      ++ byte1 (flagBit 0 flags.late + flagBit 1 flags.holdover + flagBit 2 flags.unsynced) ++ beBytes 2 skipped.toNat)
  | .actionDone id => (0x0A, idBytes id)
  | .actionCancelled id => (0x0B, idBytes id)
  | .cancelIncomplete id missing => (0x0C, idBytes id ++ setBytes missing)
  | .cancelLate id cause => (0x0D, idBytes id ++ byte1 cause.code)
  | .proposalFailed id missing cause => (0x0E, idBytes id ++ setBytes missing ++ byte1 cause.code)
  | .heldExpired id => (0x0F, idBytes id)
  | .heldDropped id => (0x10, idBytes id)
  | .mergeDropped number => (0x11, byte1 number)
  | .idClash id => (0x12, idBytes id)

/-- The 26 bytes of a report record (12.4): the field area is 15 bytes, filled from its first byte. -/
def Report.bytes (r : Report) : List Byte :=
  let k := r.kind.fields
  byte1 k.1 ++ beBytes 8 r.time.toNat ++ byte1 r.state.code ++ byte1 r.loss
    ++ k.2 ++ List.replicate (15 - k.2.length) 0

/-- The 13 bytes of a capture record (12.4). -/
def CaptureRecord.bytes (r : CaptureRecord) : List Byte :=
  byte1 (match r.source with | .loc => 0x10 | .remote n => n.val)
    ++ byte1 r.input.val ++ byte1 r.edge.code
    ++ byte1 (flagBit 0 r.unsynced + flagBit 1 r.holdover + flagBit 2 r.notShared)
    ++ byte1 r.loss ++ beBytes 8 r.time.toNat

/-- The 18 bytes of a peer snapshot (12.3, R70). -/
def Peer.bytes (n : Station) (p : Peer) : List Byte :=
  byte1 n.val
    ++ byte1 (flagBit 0 p.present + flagBit 1 p.member + flagBit 2 p.suspect + flagBit 3 p.disagreeing
      + flagBit 4 p.sample.isSome)
    ++ byte1 ((p.reported.map SenderState.code).getD 0)
    ++ beBytes 2 (p.lastRound.getD 0).toNat
    ++ signedBytes 8 (p.sample.getD 0)
    ++ byte1 (p.count.getD 0) ++ byte1 ((p.anchor.map Fin.val).getD 0)
    ++ byte1 p.missRun ++ byte1 p.outlierRun ++ byte1 p.goodRun

/-- The 43 bytes of an entry snapshot behind the entry count (12.3, R129); `deadline` is absent for a LOCAL entry. -/
def Entry.bytes (number : Nat) (e : Entry) (deadline : Option Time) : List Byte :=
  byte1 number ++ idBytes e.id
    ++ byte1 (flagBit 7 (e.scope == .loc) + flagBit 6 (e.role == .member) + e.state.code)
    ++ byte1 e.output.val ++ byte1 e.edge.code ++ byte1 e.mode.code
    ++ byte1 (flagBit 0 e.width.isSome + flagBit 1 e.required.isSome + flagBit 2 e.acked.isSome
      + flagBit 3 e.armedSet.isSome + flagBit 4 e.tries.isSome + flagBit 5 deadline.isSome)
    ++ beBytes 2 (e.width.getD 0).toNat ++ beBytes 8 e.due.toNat ++ beBytes 4 e.period.toNat ++ beBytes 2 e.count.toNat
    ++ beBytes 2 e.fired ++ beBytes 2 e.skipped
    ++ setBytes (e.required.getD 0) ++ setBytes (e.acked.getD 0) ++ setBytes (e.armedSet.getD 0)
    ++ byte1 (e.tries.getD 0) ++ beBytes 8 (deadline.getD 0).toNat

/-- The result buffer as it is shifted out: the status byte, then the data bytes (R168, 12.3). -/
def Result.bytes (r : Result) : List Byte := BitVec.ofNat 8 r.status.code :: r.data

end Sys2Proof.Machine
end

