-- ==== Sys2Proof/Machine/Ops.lean ====
section
/-! DEFINITION. The shared operations on the state: reports, results, needs, the due list, the peer entries, the line, the frame
in flight and the move of the station state. -/

namespace Sys2Proof.Machine

/-! ### Accessors -/

/-- Common time of the current period (R41). -/
def State.now (s : State) : Time := s.base.time

/-- The configuration record in force (R95); before a START nothing reads it. -/
def State.cfg (s : State) : ConfigRecord := s.inForce.getD s.port.store

/-- The bit time P of the sampled class (R3, R4). -/
def State.bitTime (s : State) : Nat := Sys2Proof.Machine.bitTime s.straps.speed

/-- The station's own number (R3). -/
def State.own (s : State) : Station := s.straps.number

/-- A peer's entry (4.1). -/
def State.peer (s : State) (n : Station) : Peer := s.peers[n]

/-- The member set: the stations whose entries hold member yes (R64). -/
def memberMap (peers : Vector Peer 16) : StationSet :=
  allStations.foldl (fun m n => if peers[n].member then m ||| single n else m) 0

/-- The member set of the station (R64). -/
def State.members (s : State) : StationSet := memberMap s.peers

/-- The number of stations of a set. -/
def setSize (m : StationSet) : Nat := (allStations.filter (StationSet.has m)).length

/-- The own member count (R64). -/
def State.memberCount (s : State) : Nat := setSize s.members + 1

/-- The own anchor (R64). -/
def State.anchor (s : State) : Station := lowestWith s.own s.members

/-! ### Bounded queues (R152, R162) -/

/-- Apply `f` to the newest item, the one at the tail. -/
def onTail {α : Type} (f : α → α) : List α → List α
  | [] => []
  | [x] => [f x]
  | x :: y :: rest => x :: onTail f (y :: rest)

/-- Join a queue that holds at most `limit` items: at the tail, or, where the queue is full, discard the item and count the loss on
the tail (R152, R162). -/
def joinQueue {α : Type} (limit : Nat) (lose : α → α) (x : α) (queue : List α) : List α :=
  if queue.length < limit then queue ++ [x] else onTail lose queue

/-! ### Reports (R159 to R162) and results (R170) -/

/-- The loss count rises by one, saturating at 255 (R162). -/
def Report.lose (r : Report) : Report := { r with loss := min 255 (r.loss + 1) }

/-- Queue one report, stamped with the common time and the station state of this moment (R159 to R162). -/
def queueReport (k : ReportKind) (s : State) : State :=
  { s with reports.records := joinQueue 32 Report.lose ⟨k, s.now, s.ctl.state, 0⟩ s.reports.records }

/-- Queue several reports in order (R161). -/
def queueReports (ks : List ReportKind) (s : State) : State := ks.foldl (fun s k => queueReport k s) s

/-- Replace the result buffer (R170). -/
def reply (status : Status) (data : List Byte) (s : State) : State := { s with port.result := ⟨status, data⟩ }

/-! ### Moves of the station state (R94) -/

/-- A move of the station state: the new state, and one STATE_CHANGED that carries it (R94, R160). -/
def moveState (new : StationState) (cause : MoveCause) (s : State) : State :=
  queueReport (.stateChanged s.ctl.state new cause) { s with ctl.state := new }

/-! ### Needs (R22, R23) -/

/-- The needs that the Frame Engine discards when they are raised (R22): every need in OFF, LISTEN and FAULT, and in LEAVING every
need but LEAVE. -/
def discardsNeed (state : StationState) (kind : FrameKind) : Bool :=
  match state with
  | .off => true
  | .listen => true
  | .fault => true
  | .leaving => kind != .leave
  | .joining => false
  | .synced => false
  | .holdover => false

/-- A source raises a need: it replaces the source's old need and takes the age of this raising (R22). -/
def raiseNeed (kind : FrameKind) (source : NeedSource) (s : State) : State :=
  if discardsNeed s.ctl.state kind then s
  else
    { s with
      engine.needs := s.engine.needs.filter (fun n => n.source != source) ++ [⟨kind, source, s.engine.nextAge⟩]
      engine.nextAge := s.engine.nextAge + 1 }

/-- A source withdraws its need (R23). -/
def withdrawNeed (source : NeedSource) (s : State) : State :=
  { s with engine.needs := s.engine.needs.filter fun n => n.source != source }

/-- A need leaves the list (R22). A need raised to replace it has another age and stays. -/
def removeNeed (need : Need) (s : State) : State :=
  { s with engine.needs := s.engine.needs.filter fun n => n.age != need.age }

/-- The list still holds this need (R23). -/
def State.holdsNeed (s : State) (need : Need) : Bool := s.engine.needs.any fun n => n.age == need.age

/-- A source holds a need of a kind. -/
def needHeld (needs : List Need) (kind : FrameKind) (source : NeedSource) : Bool :=
  needs.any fun n => n.kind == kind && n.source == source

/-! ### The line and the frame in flight -/

/-- The Line Interface becomes SETTLE, and HUNT in the same period where the line is QUIET (R8). -/
def Line.settled (l : Line) : Line :=
  { l with
    phase := if l.condition = .quiet then .hunt else .settle
    bitPos := none
    shift := []
    gapCount := 0
    pattern := none
    finding := none }

/-- The driver is released at once and the pattern discarded (R2, R7, R16). -/
def releaseDriver (s : State) : State := { s with line.driver := false, line.pattern := none }

/-- A release order: the rest of the drive pattern is discarded, and the driver is released from the next period (R16). -/
def releaseOrder (s : State) : State := { s with line.pattern := none }

/-- The Frame Engine ends the frame in flight: no frame, the latch discarded (R51), the cell in progress abandoned and the Line
Interface SETTLE (R13). -/
def endFrame (s : State) : State :=
  { s with engine.frame := none, base.latch := none, line := s.line.settled }

/-- The finding of the period has been taken. -/
def clearFinding (s : State) : State := { s with line.finding := none }

/-- An own frame in flight becomes a receive record that keeps what was read so far (R28, R35). -/
def Frame.asReceive (f : Frame) : Frame := { f with role := .receive }

/-- The transmission in flight is given up; the frame goes on being received (R28, R35). -/
def giveUpSending (s : State) : State :=
  clearFinding (releaseOrder { s with engine.frame := s.engine.frame.map Frame.asReceive })

/-! ### The due list (R114) -/

/-- The order of the due list: due, then owner, then sequence, all unsigned (R114). -/
def Entry.before (a b : Entry) : Bool :=
  decide (a.due < b.due)
    || (a.due == b.due
      && (decide (a.id.owner < b.id.owner) || (a.id.owner == b.id.owner && decide (a.id.seq < b.id.seq))))

/-- Put an entry in its place in the due list. -/
def insertEntry (e : Entry) : List Entry → List Entry
  | [] => [e]
  | x :: rest => if e.before x then e :: x :: rest else x :: insertEntry e rest

/-- Take the entry of an id out of the due list. -/
def dropEntry (id : ActionId) (entries : List Entry) : List Entry := entries.filter fun e => e.id != id

/-- The entry of an id (R112). -/
def State.entry? (s : State) (id : ActionId) : Option Entry := s.table.entries.find? fun e => e.id == id

/-- Store an entry: a new one, or the new fields of the one with its id, at its place in the due list (R112, R114). -/
def putEntry (e : Entry) (s : State) : State :=
  { s with table.entries := insertEntry e (dropEntry e.id s.table.entries) }

/-- Remove the entry of an id and withdraw its need (R127). -/
def removeEntry (id : ActionId) (s : State) : State :=
  withdrawNeed (.entry id) { s with table.entries := dropEntry id s.table.entries }

/-- The number of LOCAL entries (R113). -/
def State.localCount (s : State) : Nat := (s.table.entries.filter fun e => e.scope == .loc).length

/-- The number of SHARED entries (R113). -/
def State.sharedCount (s : State) : Nat := (s.table.entries.filter fun e => e.scope == .shared).length

/-- The deadline of an entry: its due less the commit margin in force, modulo 2^64 (R115). -/
def State.deadline (s : State) (e : Entry) : Time := e.due - s.cfg.marginNs

/-- Common time has reached or passed an entry's deadline, compared unsigned (R115). -/
def State.deadlineReached (s : State) (e : Entry) : Bool := decide (s.deadline e ≤ s.now)

/-- The Station Controller's answer to a draw (R110): the first value from the counter on that no own entry holds. `fuel` is 256, the
number of sequences. -/
def freeSeq (used : List (BitVec 8)) : Nat → BitVec 8 → BitVec 8
  | 0, c => c
  | fuel + 1, c => if used.contains c then freeSeq used fuel (c + 1) else c

/-- The sequences of the own entries (R110). -/
def State.ownSeqs (s : State) : List (BitVec 8) :=
  (s.table.entries.filter fun e => e.id.owner == s.own).map fun e => e.id.seq

/-- The sequence that the next draw gives (R110). -/
def State.nextSeq (s : State) : BitVec 8 := freeSeq s.ownSeqs 256 s.ctl.seq

/-! ### Peer entries -/

/-- Write a peer's entry. -/
def setPeer (n : Station) (p : Peer) (s : State) : State := { s with peers := s.peers.set n p }

/-- Clear every entry's sample and empty the sample list (R68, R76). -/
def clearSamples (s : State) : State :=
  { s with
    peers := s.peers.map fun p => { p with sample := none }
    rounds.samples := [] }

/-- Record an offset in the sample list: in place for a station it holds, else by station number (R76). -/
def insertSample (n : Station) (v : Int) : List (Station × Int) → List (Station × Int)
  | [] => [(n, v)]
  | (m, w) :: rest =>
    if n < m then (n, v) :: (m, w) :: rest else if n = m then (n, v) :: rest else (m, w) :: insertSample n v rest

/-- Take a station's item out of the sample list (R76). -/
def dropSample (n : Station) (samples : List (Station × Int)) : List (Station × Int) :=
  samples.filter fun x => x.1 != n

/-! ### Outputs -/

/-- The levels of the records (R119), as the pins follow them. -/
def ActionTable.levels (t : ActionTable) : Vector Bool 4 := t.outputs.map Output.high

/-- The outputs at the idle levels of a configuration record, with no pulse end (R123). -/
def idleOutputs (c : ConfigRecord) : Vector Output 4 :=
  #v[⟨c.idle.getLsbD 0, none⟩, ⟨c.idle.getLsbD 1, none⟩, ⟨c.idle.getLsbD 2, none⟩, ⟨c.idle.getLsbD 3, none⟩]

end Sys2Proof.Machine
end

