-- ==== Sys2Proof/Machine/TimeBase.lean ====
section
/-! DEFINITION. The Time Base (chapter 3): advance, requests, steps, edge stamps, the frame-start latch and offsets. -/

namespace Sys2Proof.Machine

/-! ### Advance (R42) -/

/-- The increment of one period in units of 10^-9 ns: 40 × (10^9 + r), r the trim plus the slew term in ppb (R42). -/
def TimeBase.increment (b : TimeBase) : Nat := (40 * (1000000000 + b.trim + b.slew)).toNat

/-- The Time Base over the boundary that ends a period (R42, R46): the increment where the run flag is running, and the pending
step, which becomes the step notice of the period that begins. -/
def TimeBase.advance (b : TimeBase) : TimeBase :=
  let units := b.fraction + b.increment
  let whole : Time := if b.running then BitVec.ofNat 64 (units / 1000000000) else 0
  let amount : Int := (b.pendingStep.map TimeStep.amount).getD 0
  { b with
    time := b.time + whole + BitVec.ofInt 64 amount
    fraction := if b.running then units % 1000000000 else b.fraction
    pendingStep := none
    notice := b.pendingStep.map fun st => ⟨st, true⟩ }

/-! ### Requests (R43, R44, R46) -/

/-- A value replaced by the limit on its side where it lies outside -limit to +limit (R43). -/
def clampTo (limit : Nat) (v : Int) : Int := max (-(limit : Int)) (min (limit : Int) v)

/-- The limit of the slew term in ppb (R43). -/
def slewLimit : Nat := 500000

/-- The limit of the rate trim in ppb (R43). -/
def trimLimit : Nat := 200000

/-- The states in which a set rate trim request is taken (R43). -/
def takesTrim : StationState → Bool
  | .joining => true
  | .synced => true
  | .off => false
  | .listen => false
  | .holdover => false
  | .leaving => false
  | .fault => false

/-- Set slew term: the new state and the answer whether the value was replaced by a limit (R43). -/
def requestSlew (q : Int) (s : State) : State × Bool :=
  if s.ctl.state.takesPart then ({ s with base.slew := clampTo slewLimit q }, clampTo slewLimit q != q) else (s, false)

/-- Set rate trim: the new state and the answer whether the value was replaced by a limit (R43). -/
def requestTrim (v : Int) (s : State) : State × Bool :=
  if takesTrim s.ctl.state then ({ s with base.trim := clampTo trimLimit v }, clampTo trimLimit v != v) else (s, false)

/-- Zero slew (R44). -/
def zeroSlew (s : State) : State := { s with base.slew := 0 }

/-- The states in which a step request of a cause is taken (R46). -/
def takesStep (cause : StepCause) (state : StationState) : Bool :=
  match cause with
  | .adopt => state == .listen
  | .merge => state.takesPart

/-- A step request: it becomes the pending step and zeroes the slew term (R46, R44). -/
def requestStep (st : TimeStep) (s : State) : State :=
  if takesStep st.cause s.ctl.state then zeroSlew { s with base.pendingStep := some st } else s

/-! ### Step notice (R47, R51) -/

/-- The step whose notice is still to be taken in this period (R47). -/
def State.noticeDue (s : State) : Option TimeStep :=
  match s.base.notice with
  | some n => if n.outstanding then some n.step else none
  | none => none

/-- The period is the step notice period of a forward step (R122). -/
def State.forwardStepPeriod (s : State) : Bool :=
  match s.base.notice with
  | some n => decide (0 < n.step.amount)
  | none => false

/-- A time shifted by a step amount, modulo 2^64 (R51, R121). -/
def shiftTime (amount : Int) (t : Time) : Time := t + BitVec.ofInt 64 amount

/-- The latch as a step notice leaves it: shifted, but for a latch set in the very period of the notice (R51). -/
def Latch.shift (amount : Int) (period : Nat) (l : Latch) : Latch :=
  if l.edge = period then l else { l with stamp := shiftTime amount l.stamp }

/-- The latch as every reader of this period sees it: shifted already where the notice of the period is still to be taken, so that it
stays in the scale of common time (R51, R52, R69). -/
def State.latchNow (s : State) : Option Latch :=
  match s.noticeDue with
  | some st => s.base.latch.map (Latch.shift st.amount s.period)
  | none => s.base.latch

/-! ### Stamps and offsets (R50, R53) -/

/-- The stamp of an edge read in this period: common time less 80 ns (R50). -/
def State.stamp (s : State) : Time := s.now - 80

/-- A frame start sets the latch, or discards it in FAULT (R51). -/
def latchFrameStart (s : State) : State :=
  match s.ctl.state with
  | .fault => { s with base.latch := none }
  | .off => { s with base.latch := none }
  | .listen => { s with base.latch := some ⟨s.stamp, s.period⟩ }
  | .joining => { s with base.latch := some ⟨s.stamp, s.period⟩ }
  | .synced => { s with base.latch := some ⟨s.stamp, s.period⟩ }
  | .holdover => { s with base.latch := some ⟨s.stamp, s.period⟩ }
  | .leaving => { s with base.latch := some ⟨s.stamp, s.period⟩ }

/-- The offset of a SYNC's sender: the carried reference-edge time and the line delay compensation less the latch, modulo 2^64, read
as signed (R53, R54). -/
def offsetOf (refTime : Time) (lineDelay : Nat) (latch : Time) : Int := (refTime + BitVec.ofNat 64 lineDelay - latch).toInt

/-- The offset that this station forms of a SYNC at its acceptance instant (R53). A frame in flight holds a latch, since its frame
start set one (R51); without one the stamp counts as 0. -/
def State.offset (s : State) (refTime : Time) : Int :=
  offsetOf refTime s.cfg.lineDelay ((s.latchNow.map Latch.stamp).getD 0)

end Sys2Proof.Machine
end

