-- ==== Sys2Proof/Machine/ActionTable.lean ====
section
/-! DEFINITION. The Action Table (chapter 7): trigger outputs, firing, and late firing after a forward step. -/

namespace Sys2Proof.Machine

/-! ### Outputs (R119, R120) -/

/-- The second stage of an output's operation: a pulse end that is reached or passed takes the output low (R120). -/
def Output.endPulse (now : Time) (o : Output) : Output :=
  match o.pulseEnd with
  | some p => if p ≤ now then ⟨false, none⟩ else o
  | none => o

/-- The first stage of an output's operation: a step shifts the pulse end (R120, R121). -/
def Output.shift (amount : Int) (o : Output) : Output := { o with pulseEnd := o.pulseEnd.map (shiftTime amount) }

/-- An edge applied to an output, with the new end of a pulse (R119). -/
def Output.apply (edge : ActionEdge) (newEnd : Time) (o : Output) : Output :=
  match edge with
  | .rise => ⟨true, none⟩
  | .fall => ⟨false, none⟩
  | .toggle => ⟨!o.high, none⟩
  | .pulse =>
    match o.pulseEnd with
    | some p => ⟨true, some (if p < newEnd then newEnd else p)⟩
    | none => ⟨true, some newEnd⟩

/-- An output's record (7.1). -/
def State.output (s : State) (c : Channel) : Output := s.table.outputs[c]

/-- Write an output's record. -/
def setOutput (c : Channel) (o : Output) (s : State) : State := { s with table.outputs := s.table.outputs.set c o }

/-! ### Judging a firing (R116, R122) -/

/-- What a firing does to its entry: occurrences skipped at it, whether the entry ends, and the due it goes on with. -/
structure FiringPlan where
  skip : Nat
  ends : Bool
  due : Time
deriving DecidableEq, Repr

/-- A firing without a forward step: it ends a counted entry whose count is reached, else the due moves on by the period (R116). -/
def Entry.planOnTime (e : Entry) : FiringPlan where
  skip := 0
  ends := e.count != 0 && decide (e.count.toNat ≤ e.fired + 1 + e.skipped)
  due := e.due + e.period.setWidth 64

/-- The occurrences that common time `now` reaches or passes (R122). -/
def Entry.passed (e : Entry) (now : Time) : Nat :=
  if e.period = 0 then 1 else (now - e.due).toNat / e.period.toNat + 1

/-- A firing in the step notice period of a forward step: the first passed occurrence fires, the others are skipped (R122). -/
def Entry.planLate (e : Entry) (now : Time) : FiringPlan :=
  let k := e.passed now
  let r := e.count.toNat - e.fired - e.skipped
  let onward := e.due + BitVec.ofNat 64 (k * e.period.toNat)
  if e.count = 0 then ⟨k - 1, false, onward⟩
  else if k < r then ⟨k - 1, false, onward⟩
  else ⟨r - 1, true, onward⟩

/-- The plan of a firing (R116, R122). -/
def Entry.plan (late : Bool) (now : Time) (e : Entry) : FiringPlan := if late then e.planLate now else e.planOnTime

/-- The new end of a pulse: from the due, or from the firing time where the firing is late (R119). -/
def Entry.newEnd (late : Bool) (now : Time) (e : Entry) : Time :=
  (if late then now else e.due) + BitVec.ofNat 64 ((e.width.getD 0).toNat * 100)

/-- The skipped field of ACTION_FIRED (R118): two bytes; beyond 65,535 a free value (notes/assumptions/18.md). -/
def skippedField (n : Nat) : BitVec 16 := if n ≤ 65535 then BitVec.ofNat 16 n else Config.skippedAbove16 n

/-- The ACTION_FIRED report of a firing (R118). -/
def Entry.firedReport (late : Bool) (now : Time) (state : StationState) (e : Entry) : ReportKind :=
  .actionFired e.id (min 65535 (e.fired + e.skipped + 1)) (now - e.due) (firingFlags late state)
    (skippedField (e.plan late now).skip)

/-- The entry after a firing that does not end it (R116, R122). -/
def Entry.afterFiring (late : Bool) (now : Time) (e : Entry) : Entry :=
  { e with
    fired := min 65535 (e.fired + 1)
    skipped := min 65535 (e.skipped + (e.plan late now).skip)
    due := (e.plan late now).due }

/-! ### Firing (R116 to R120, R122) -/

/-- An output's record behind the pulse-end stage of the period's operation (R120). The stage comes once, before every firing on the
output: a pulse end that a firing of this period has set is not compared until the next period. -/
def State.pulseEnded (s : State) (c : Channel) : Output :=
  if s.table.firedOutputs.contains c then s.output c else (s.output c).endPulse s.now

/-- A firing applies the edge to its output, behind the output's pulse-end stage (R119, R120). -/
def fireOutput (late : Bool) (e : Entry) (s : State) : State :=
  setOutput e.output ((s.pulseEnded e.output).apply e.edge (e.newEnd late s.now)) s

/-- A firing reports itself where the report mode is EACH (R118). -/
def fireReport (late : Bool) (e : Entry) (s : State) : State :=
  if e.mode = .each then queueReport (e.firedReport late s.now s.ctl.state) s else s

/-- After the firing the entry ends with ACTION_DONE, or goes on with its new due (R116, R122). DESIGN CHOICE
(notes/assumptions/48.md): the removal at the last occurrence ends a follow-up of the entry too, without ACTION_ARMED and
COMMIT_INCOMPLETE; and a new due leaves a follow-up as it stands. -/
def fireEntry (late : Bool) (e : Entry) (s : State) : State :=
  if (e.plan late s.now).ends then queueReport (.actionDone e.id) (removeEntry e.id s)
  else putEntry (e.afterFiring late s.now) s

/-- The entry has fired in this period, and its output has taken a firing (R116, R120). -/
def markFired (e : Entry) (s : State) : State :=
  { s with
    table.firedNow := e.id :: s.table.firedNow
    table.firedOutputs := e.output :: s.table.firedOutputs }

/-- One firing of an ARMED entry. -/
def fire (late : Bool) (e : Entry) (s : State) : State :=
  fireEntry late e (fireReport late e (markFired e (fireOutput late e s)))

/-- An entry fires in this period: ARMED, its due reached or passed, compared unsigned, and not fired in the period yet (R116). -/
def State.isDue (s : State) (e : Entry) : Bool :=
  e.state == .armed && decide (e.due ≤ s.now) && !s.table.firedNow.contains e.id

/-- An entry is handed a deadline event in this period: SHARED, in PENDING, COMMITTING, HELD or CANCELLING, its deadline reached, and
not already waiting for its last outcome (R115, R146). The event of a HELD copy that a PROPOSE has replaced in this period is still handed
(R149). -/
def State.deadlineDue (s : State) (e : Entry) : Bool :=
  e.scope == .shared && e.state != .armed && !e.finalAwaited && (s.deadlineReached e || s.table.expiring.contains e.id)

/-- An entry whose deadline event stands before its due in this period (R115). -/
def State.deadlineBeforeDue (s : State) (e : Entry) : Bool := s.deadlineDue e && decide (e.due ≤ s.now)

/-- The next firing of the period: the first entry of the due list that fires, while no step notice and no deadline event stands
before it (R115, R116, R120). DESIGN CHOICE (notes/assumptions/44.md): the deadline event of an entry whose due has come too holds back the
firings of every entry, and not of that one alone. -/
def State.nextFiring (s : State) : Option Entry :=
  if s.noticeDue.isSome || s.table.entries.any s.deadlineBeforeDue then none else s.table.entries.find? s.isDue

/-- ACTION_DUE (R116): the next firing of the period, with LATE in the notice period of a forward step (R122). -/
def actionDue (s : State) : State :=
  match s.nextFiring with
  | some e => fire s.forwardStepPeriod e s
  | none => s

/-- PULSE_END (R120): a pulse end that is reached takes the output low, behind the step notice of the period and before its firings. -/
def pulseEnd (c : Channel) (s : State) : State :=
  if s.noticeDue.isSome then s else setOutput c (s.pulseEnded c) s

/-- The late firings of a forward step: every ARMED entry that the stepped time reaches fires once, in due list order (R122). -/
def fireAllLate (s : State) : State :=
  (s.table.entries.filter s.isDue).foldl (fun s e => fire true e s) s

/-- The pulse ends shifted by a step (R121). -/
def shiftPulses (amount : Int) (s : State) : State :=
  { s with table.outputs := s.table.outputs.map (Output.shift amount) }

/-- The table emptied and the outputs at the idle levels in force, at STOP and entry to LEAVING (R123, R124). -/
def clearTable (s : State) : State :=
  { s with
    table.entries := []
    table.outputs := idleOutputs s.cfg }

/-! ### The rows -/

/-- The row ACTION_DUE (R116). -/
def execActionDue (s : State) : Host.Outcome State Fault Refusal := .next (actionDue s)

/-- The row PULSE_END (R120). -/
def execPulseEnd (output : Channel) (s : State) : Host.Outcome State Fault Refusal := .next (pulseEnd output s)

end Sys2Proof.Machine
end

