-- ==== Sys2Proof/Machine/Protocol.lean ====
section
/-! DEFINITION. The Action Protocol (chapter 8): owner phases, member copies, deadlines, cancels, left notices, entry to FAULT. -/

namespace Sys2Proof.Machine

/-! ### Reading an entry -/

/-- The required set of an owner entry (7.1). -/
def Entry.req (e : Entry) : StationSet := e.required.getD 0

/-- The acked set of an owner entry (7.1). -/
def Entry.acks (e : Entry) : StationSet := e.acked.getD 0

/-- The missing set: the required set less the acked set (R132, R136, R145). -/
def Entry.missing (e : Entry) : StationSet := setLess e.req e.acks

/-- The acked set holds every station of the required set. -/
def Entry.covered (e : Entry) : Bool := setWithin e.req e.acks

/-- An owner entry is committed once it holds an armed set (8.1). -/
def Entry.committed (e : Entry) : Bool := e.armedSet.isSome

/-- The cancel point of a CANCELLING entry is reached (8.1). -/
def Entry.pointReached (e : Entry) : Bool := (e.marks.map CancelMarks.pointReached).getD false

/-- The cancel reason of a CANCELLING entry is HOST (8.1). -/
def Entry.byHost (e : Entry) : Bool := (e.marks.map CancelMarks.reason).getD .tries == .host

/-- An own SHARED entry (7.1). -/
def Entry.ownShared (e : Entry) : Bool := e.scope == .shared && e.role == .owner

/-- An owner entry in commit follow-up: ARMED, and still holding a COMMIT need (8.1). -/
def inFollowUp (needs : List Need) (e : Entry) : Bool :=
  e.ownShared && e.state == .armed && needHeld needs .commit (.entry e.id)

/-- The frame in flight is an own frame of an entry of one of the kinds. -/
def sendsFor (id : ActionId) (kinds : List FrameKind) (f : Frame) : Bool :=
  match f.role with
  | .transmit need _ => need.source == .entry id && kinds.contains need.kind
  | .receive => false

/-- An own frame of the entry, of one of the kinds, is in flight. -/
def State.sending (s : State) (id : ActionId) (kinds : List FrameKind) : Bool :=
  (s.engine.frame.map (sendsFor id kinds)).getD false

/-- The check-point flag of the frame in flight (2.2). -/
def State.atCheckPoint (s : State) : Bool := (s.engine.frame.map Frame.checkPoint).getD false

/-- An owner cut (R38): the frame of the entry in flight, before its check point, is released, ended and its need removed, with no
outcome report. -/
def ownerCut (id : ActionId) (kinds : List FrameKind) (s : State) : State :=
  match s.engine.frame with
  | some f =>
    match f.role with
    | .transmit need _ =>
      if sendsFor id kinds f && !f.checkPoint then removeNeed need (endFrame (releaseOrder s)) else s
    | .receive => s
  | none => s

/-! ### Owner phases (R132 to R135, R143 to R145) -/

/-- The entry raises a need of its own (R22). -/
def raiseFor (kind : FrameKind) (e : Entry) (s : State) : State := raiseNeed kind (.entry e.id) s

/-- The entry becomes COMMITTING without cancel marks and raises its COMMIT need (R132, R133, 8.1). -/
def becomeCommitting (e : Entry) (s : State) : State :=
  raiseFor .commit e (putEntry { e with state := .committing, tries := some 0, acked := some 0, marks := none } s)

/-- One more try, and the acks that the entry awaited, out of an ack set (R131, R132, R145). -/
def Entry.withTry (acks : StationSet) (e : Entry) : Entry :=
  { e with
    tries := some (e.tries.getD 0 + 1)
    acked := some (e.acks ||| (acks &&& e.req)) }

/-- The entry has taken the completed outcome of a PROPOSE in this period (R149). -/
def markProposed (id : ActionId) (s : State) : State := { s with table.proposedNow := id :: s.table.proposedNow }

/-- What a completed PROPOSE makes of a PENDING entry (R132). -/
def proposeOutcome (acks : StationSet) (old : Entry) (s : State) : State :=
  let e := old.withTry acks
  if e.covered then becomeCommitting e s
  else if e.tries.getD 0 < 3 then raiseFor .propose e (putEntry e s)
  else
    raiseFor .cancel e
      (queueReport (.proposalFailed e.id e.missing .tries)
        (putEntry { e with state := .cancelling, tries := some 0, marks := some ⟨.tries, false⟩ } s))

/-- A completed PROPOSE of a PENDING entry (R132). -/
def proposeCompleted (acks : StationSet) (e : Entry) (s : State) : State := proposeOutcome acks e (markProposed e.id s)

/-- The reports at the end of a commit follow-up (R135): ACTION_ARMED, and COMMIT_INCOMPLETE where a station of the armed set is
missing. -/
def Entry.followUpReports (e : Entry) : List ReportKind :=
  let missing := setLess (e.armedSet.getD 0) e.acks
  .actionArmed e.id (e.armedSet.getD 0) :: if missing = 0 then [] else [.commitIncomplete e.id missing]

/-- The follow-up ends: the entry holds no need, and the reports are queued (R135). -/
def endFollowUp (e : Entry) (s : State) : State :=
  queueReports e.followUpReports (withdrawNeed (.entry e.id) (putEntry { e with finalAwaited := false } s))

/-- A completed COMMIT of an entry in commit follow-up (R135): the acks of the armed set, taken within the required set as every set
out of an ack set is (R131). -/
def commitCompleted (acks : StationSet) (old : Entry) (s : State) : State :=
  let e := old.withTry (acks &&& old.armedSet.getD 0)
  if !setWithin (e.armedSet.getD 0) e.acks && decide (e.tries.getD 0 < 3) && !e.finalAwaited && !s.deadlineReached e then
    raiseFor .commit e (putEntry e s)
  else endFollowUp e s

/-- CANCEL_INCOMPLETE of a committed entry whose required set is not covered (R145, R146, R148). -/
def Entry.incompleteReports (e : Entry) : List ReportKind :=
  if e.committed && !e.covered then [.cancelIncomplete e.id e.missing] else []

/-- A cancel ends: the entry is removed, with CANCEL_INCOMPLETE where R145 and R146 give it. -/
def endCancel (e : Entry) (s : State) : State := queueReports e.incompleteReports (removeEntry e.id s)

/-- A completed CANCEL of a CANCELLING entry (R145, R146). -/
def cancelCompleted (acks : StationSet) (old : Entry) (s : State) : State :=
  let e := old.withTry acks
  if e.committed && !e.covered && decide (e.tries.getD 0 < 3) && !e.finalAwaited then raiseFor .cancel e (putEntry e s)
  else endCancel e s

/-- The commit point of a COMMITTING entry (R134). -/
def commitPoint (e : Entry) (s : State) : State := putEntry { e with state := .armed, armedSet := some e.req } s

/-- The commit point of an uncommitted HOST cancel whose COMMIT was in flight (R134): a committed cancel from now on. -/
def commitPointInCancel (e : Entry) (s : State) : State :=
  putEntry
    { e with
      armedSet := some e.req
      required := some (e.req &&& s.members)
      acked := some 0
      tries := some 0 } s

/-- The cancel point (R145): reached once, with ACTION_CANCELLED for a HOST cancel. -/
def cancelPoint (e : Entry) (s : State) : State :=
  if e.pointReached then s
  else
    queueReports (if e.byHost then [.actionCancelled e.id] else [])
      (putEntry { e with marks := e.marks.map fun m => { m with pointReached := true } } s)

/-! ### Reports of the Frame Engine to an entry (R147) -/

/-- Check complete of a frame of an entry (R134, R145, R147). -/
def entryCheckComplete (kind : FrameKind) (id : ActionId) (s : State) : State :=
  match s.entry? id with
  | none => s
  | some e =>
    match kind, e.state with
    | .commit, .committing => commitPoint e s
    | .commit, .cancelling => if !e.committed && e.byHost then commitPointInCancel e s else s
    | .cancel, .cancelling => cancelPoint e s
    | _, _ => s

/-- The completed outcome of a frame of an entry (R132, R135, R145, R147); `held` says that the entry still held the frame's need. -/
def entryCompleted (kind : FrameKind) (id : ActionId) (acks : StationSet) (held : Bool) (s : State) : State :=
  match s.entry? id with
  | none => s
  | some e =>
    match kind, e.state with
    | .propose, .pending => proposeCompleted acks e s
    | .commit, .armed => if held && e.ownShared then commitCompleted acks e s else s
    | .cancel, .cancelling => cancelCompleted acks e s
    | _, _ => s

/-- The failed outcome of a frame of an entry (R132, R135, R145, R146, R147): not a try, and the end of a follow-up or a cancel whose
deadline has made it the last outcome. -/
def entryFailed (kind : FrameKind) (id : ActionId) (held : Bool) (s : State) : State :=
  match s.entry? id with
  | none => s
  | some e =>
    match kind, e.state with
    | .commit, .armed => if held && e.finalAwaited then endFollowUp e s else s
    | .cancel, .cancelling => if e.finalAwaited then endCancel e s else s
    | _, _ => s

/-! ### Deadlines (R115, R135, R136, R140, R146) -/

/-- The deadline of a PENDING or COMMITTING owner entry (R136). -/
def proposalDeadline (e : Entry) (s : State) : State :=
  queueReport (.proposalFailed e.id e.missing .late)
    (removeEntry e.id (ownerCut e.id [.propose, .commit, .cancel] s))

/-- The deadline of a HELD entry (R140). -/
def heldDeadline (e : Entry) (s : State) : State := queueReport (.heldExpired e.id) (removeEntry e.id s)

/-- A committed cancel returns to ARMED (R146, R148): the marks are discarded, the sets and tries kept. -/
def Entry.rearmed (e : Entry) : Entry := { e with state := .armed, marks := none, finalAwaited := false }

/-- The deadline of a CANCELLING owner entry (R146). -/
def cancelDeadline (e : Entry) (s : State) : State :=
  let t := ownerCut e.id (if !e.committed && e.byHost then [.cancel, .commit] else [.cancel]) s
  if e.pointReached then
    if t.sending e.id [.cancel] && t.atCheckPoint then putEntry { e with finalAwaited := true } t else endCancel e t
  else if e.committed then
    queueReport (.cancelLate e.id .deadline) (withdrawNeed (.entry e.id) (putEntry e.rearmed t))
  else queueReports (if e.byHost then [.actionCancelled e.id] else []) (removeEntry e.id t)

/-- The Action Protocol's answer to a deadline event (R115). -/
def answerDeadline (e : Entry) (s : State) : State :=
  match e.state with
  | .pending => proposalDeadline e s
  | .committing => proposalDeadline e s
  | .held => heldDeadline e s
  | .cancelling => cancelDeadline e s
  | .armed => s

/-- DEADLINE_EVENT (R115) of the entry of an id, where it is due in this period. -/
def deadlineEvent (id : ActionId) (s : State) : State :=
  match s.entry? id with
  | some e => if s.deadlineDue e then answerDeadline e s else s
  | none => s

/-- FOLLOW_UP_DEADLINE (R135): the COMMIT in flight runs to its last outcome, or the follow-up ends now. DESIGN CHOICE
(notes/assumptions/38.md): a COMMIT that then loses arbitration has no outcome, so its need goes out again and that outcome is the
last. DESIGN CHOICE (notes/assumptions/48.md): a firing of the entry that the period takes first leaves it gone, or with a new deadline. -/
def followUpDeadline (id : ActionId) (s : State) : State :=
  match s.entry? id with
  | some e =>
    if inFollowUp s.engine.needs e && !e.finalAwaited && s.deadlineReached e then
      if s.sending id [.commit] then putEntry { e with finalAwaited := true } s else endFollowUp e s
    else s
  | none => s

/-! ### Left notices (R133, R141) -/

/-- A left notice removes a station from the sets of the entry: an own one in PENDING (R133), or one that has taken the completed outcome
of a PROPOSE in this period and has moved on to COMMITTING or CANCELLING (R149). DESIGN CHOICE (notes/assumptions/39.md): the second holds
whichever event of the period has moved the entry on. -/
def State.prunes (s : State) (e : Entry) : Bool :=
  e.ownShared
    && (e.state == .pending || s.table.proposedNow.contains e.id && (e.state == .committing || e.state == .cancelling))

/-- An owner entry without a station in its required and its acked set (R133). -/
def Entry.without (n : Station) (e : Entry) : Entry :=
  { e with
    required := some (setLess e.req (single n))
    acked := some (setLess e.acks (single n)) }

/-- An entry that a left notice makes COMMITTING where it completes its set: PENDING behind a first try (R133), or, among those that the
notice prunes, CANCELLING by the third try that the period has completed (R149). -/
def Entry.commitsByNotice (e : Entry) : Bool :=
  e.state == .pending && decide (1 ≤ e.tries.getD 0) || e.state == .cancelling && e.marks == some ⟨.tries, false⟩

/-- A left notice at one owner entry that it prunes (R133, R149). DESIGN CHOICE (notes/assumptions/39.md): where the third try has queued
PROPOSAL_FAILED in this period and the notice then completes the set, that report stands. -/
def pruneEntry (n : Station) (old : Entry) (s : State) : State :=
  let e := old.without n
  if e.commitsByNotice && e.covered then becomeCommitting e s else putEntry e s

/-- A left notice at the owner side (R133, R149). -/
def pruneRequired (n : Station) (s : State) : State :=
  (s.table.entries.filter s.prunes).foldl (fun s e => pruneEntry n e s) s

/-- Remove HELD entries, each with HELD_DROPPED, in due list order (R141). -/
def dropHeld (entries : List Entry) (s : State) : State :=
  entries.foldl (fun s e => queueReport (.heldDropped e.id) (removeEntry e.id s)) s

/-- A left notice at the member side: the HELD entries of the owner that left (R141). -/
def purgeOwner (n : Station) (s : State) : State :=
  dropHeld (s.table.entries.filter fun e => e.state == .held && e.id.owner == n) s

/-- A left notice at the Action Protocol (R64). -/
def protocolLeft (n : Station) (s : State) : State := purgeOwner n (pruneRequired n s)

/-! ### The member side (R137 to R139) -/

/-- The id has a HELD copy whose deadline event falls in this period and is still to be taken (R115, R149). -/
def State.expires (s : State) (id : ActionId) : Bool :=
  match s.entry? id with
  | some x => x.state == .held && s.deadlineDue x
  | none => false

/-- A proposal's copy is stored (R137). A HELD copy that it replaces before the deadline event of the period leaves that event to the new
one (R149). -/
def storeCopy (e : Entry) (s : State) : State :=
  putEntry e (if s.expires e.id then { s with table.expiring := e.id :: s.table.expiring } else s)

/-- A PROPOSE at its acceptance instant: the new state and whether the frame is accepted (R137). DEDUCED (notes/assumptions/40.md): a
PROPOSE that meets the deadline event of its HELD copy in one period and is taken first replaces the copy by R149, whatever deadline it
carries. -/
def memberPropose (sender : Station) (payload : List Byte) (s : State) : State × Bool :=
  let id : ActionId := ⟨sender, BitVec.ofNat 8 (field 0 1 payload)⟩
  match (decodeProposePayload payload).entry? id .shared .member .held with
  | none => (s, false)
  | some e =>
    if s.ctl.state = .synced ∧ (s.peer sender).member ∧ (s.now < s.deadline e ∨ s.expires id) then
      match s.entry? id with
      | some x =>
        if x.state = .armed then (queueReport (.idClash id) s, false)
        else if x.state = .held ∨ s.table.entries.length < 32 then (storeCopy e s, true)
        else (s, false)
      | none => if s.table.entries.length < 32 then (storeCopy e s, true) else (s, false)
    else (s, false)

/-- A COMMIT at its acceptance instant (R138). -/
def memberCommit (own sender : Station) (payload : List Byte) (s : State) : State × Bool :=
  let id : ActionId := ⟨sender, BitVec.ofNat 8 (field 0 1 payload)⟩
  let set : StationSet := BitVec.ofNat 16 (field 1 2 payload)
  match s.entry? id with
  | none => (s, false)
  | some e =>
    match e.state with
    | .held =>
      if StationSet.has set own then (putEntry { e with state := .armed, armedSet := some set } s, true)
      else (queueReport (.heldDropped id) (removeEntry id s), false)
    | .armed => (s, true)
    | .pending => (s, false)
    | .committing => (s, false)
    | .cancelling => (s, false)

/-- A CANCEL at its acceptance instant: accepted always, and any copy with its id removed (R139). -/
def memberCancel (sender : Station) (payload : List Byte) (s : State) : State × Bool :=
  (removeEntry ⟨sender, BitVec.ofNat 8 (field 0 1 payload)⟩ s, true)

/-! ### Entry to FAULT and merge yield (R148, R125) -/

/-- What entry to FAULT leaves of an entry (R148). -/
def Entry.afterFault (e : Entry) : Option Entry :=
  match e.state with
  | .held => none
  | .pending => none
  | .committing => none
  | .armed => some { e with finalAwaited := false }
  | .cancelling => if e.committed && !e.pointReached then some e.rearmed else none

/-- The report of a CANCELLING entry that entry to FAULT removes (R148). -/
def Entry.faultCancelReports (e : Entry) : List ReportKind :=
  if e.pointReached then e.incompleteReports else if e.byHost then [.actionCancelled e.id] else []

/-- The Action Protocol's reports at entry to FAULT, in the order of R148's list and by due list order within it
(notes/assumptions/14.md). -/
def faultReports (needs : List Need) (entries : List Entry) : List ReportKind :=
  let held := entries.filter fun e => e.state == .held
  let proposed := entries.filter fun e => e.state == .pending || e.state == .committing
  let followed := entries.filter (inFollowUp needs)
  let returned := entries.filter fun e => e.state == .cancelling && e.committed && !e.pointReached
  let removed := entries.filter fun e => e.state == .cancelling && !(e.committed && !e.pointReached)
  held.map (fun e => .heldDropped e.id)
    ++ proposed.map (fun e => .proposalFailed e.id e.missing .fault)
    ++ followed.flatMap Entry.followUpReports
    ++ returned.map (fun e => .cancelLate e.id .fault)
    ++ removed.flatMap Entry.faultCancelReports

/-- The entries that stay at entry to FAULT (R148). -/
def faultEntries (s : State) : State := { s with table.entries := s.table.entries.filterMap Entry.afterFault }

/-- The discard of a merge yield (R125): every SHARED entry removed, its need withdrawn, one MERGE_DROPPED. -/
def discardShared (s : State) : State :=
  let shared := s.table.entries.filter fun e => e.scope == .shared
  queueReport (.mergeDropped shared.length)
    (shared.foldl (fun s e => removeEntry e.id s) s)

/-! ### The rows -/

/-- The row DEADLINE_EVENT (R115). -/
def execDeadlineEvent (id : ActionId) (s : State) : Host.Outcome State Fault Refusal := .next (deadlineEvent id s)

/-- The row FOLLOW_UP_DEADLINE (R135). -/
def execFollowUpDeadline (id : ActionId) (s : State) : Host.Outcome State Fault Refusal := .next (followUpDeadline id s)

end Sys2Proof.Machine
end

