-- ==== Sys2Proof/Machine/Station.lean ====
section
/-! DEFINITION. The Station Controller (chapter 6): resets, START, entry to OFF, LEAVING and FAULT, founding and adoption. -/

namespace Sys2Proof.Machine

/-! ### Resets (R93) -/

/-- Power-on values in every block with freshly sampled straps (R3, R93). The period number, the pins' readings and the queue of
commands are the outside's and stay, and so does RESET_N, which may be low still (R167). -/
def powerOn (p : StrapPins) (s : State) : State :=
  { State.reset with
    straps := sampleStraps p
    resetLow := s.resetLow
    period := s.period
    pins := s.pins
    pending := s.pending }

/-- The release of RESET_N: the power-on values, the straps sampled anew (R3, R93). -/
def releaseReset (p : StrapPins) (s : State) : State := { powerOn p s with resetLow := false }

/-- RESET_N falls (R167, R2, R164): the driver and IRQ_N are released and a transaction is abandoned without being taken. -/
def assertReset (s : State) : State :=
  { s with
    resetLow := true
    line.driver := false
    reports.irq := false
    port.transaction := none
    port.ended := none }

/-! ### The round state (R77) -/

/-- The round number of a value of common time (R71). -/
def roundOf (c : ConfigRecord) (t : Time) : Nat := t.toNat / c.roundLength

/-- The close point of a round in ns (R71), as an unbounded number. DESIGN CHOICE (notes/assumptions/37.md): the short last round before the
wrap whose close point lies past 2^64 - 1 has no close, and its window and samples go over into round 0. -/
def closePoint (c : ConfigRecord) (round : Nat) : Nat := round * c.roundLength + c.roundLength / 2

/-- The round state reset on the common time of the period (R77): the round, the window, no samples, no SYNC in this round. -/
def resetRounds (s : State) : State :=
  let t := clearSamples (withdrawNeed .roundEngine s)
  { t with
    rounds.round := roundOf s.cfg s.now
    rounds.syncSent := true
    rounds.joinRun := 0
    rounds.windowOpen := decide (s.now.toNat < closePoint s.cfg (roundOf s.cfg s.now))
    rounds.active := true }

/-! ### START (R95, R96) -/

/-- The sampled levels of the capture inputs at START: the readings of its period (R150). -/
def capLevels (cap : BitVec 4) : Vector (Option Bool) 4 :=
  #v[some (cap.getLsbD 0), some (cap.getLsbD 1), some (cap.getLsbD 2), some (cap.getLsbD 3)]

/-- A taken START (R95, R96, R5, R21, R45, R57, R72, R123, R157). -/
def startStation (initial : Time) (s : State) : State :=
  let c := s.port.store
  moveState .listen .hostStart
    { s with
      inForce := some c
      line := { Line.idleLine with phase := .settle }
      engine := ⟨[], s.engine.nextAge, none, 0⟩
      base := ⟨initial, 0, c.initialTrim, 0, true, none, none, s.base.notice⟩
      peers := Vector.replicate 16 Peer.absent
      rounds := ⟨false, 0, false, [], false, 0, false, 0⟩
      ctl.faultCause := .noFault
      ctl.listenTimer := some initial
      ctl.leaveFailures := 0
      table.entries := []
      table.outputs := idleOutputs c
      capture := ⟨capLevels s.pins.cap, Vector.replicate 4 none, [], []⟩ }

/-! ### Entry to OFF (R104, R106) -/

/-- What STOP and the end of LEAVING do to every block but the controller's state (R106: R5, R21, R45, R57, R72, R124, R157). -/
def haltBlocks (s : State) : State :=
  let t := clearTable s
  { t with
    inForce := none
    line := { Line.idleLine with edge := s.line.edge, reading := s.line.reading }
    engine := ⟨[], s.engine.nextAge, none, s.engine.run⟩
    base :=
      { s.base with
        running := false
        slew := 0
        latch := none
        pendingStep := none }
    peers := Vector.replicate 16 Peer.absent
    rounds :=
      { s.rounds with
        active := false
        windowOpen := false
        samples := []
        syncSent := false
        joinRun := 0 }
    ctl.listenTimer := none
    ctl.leaveFailures := 0
    capture := ⟨Vector.replicate 4 none, Vector.replicate 4 none, [], []⟩ }

/-- The station moves to OFF (R104, R105). -/
def goOff (cause : MoveCause) (s : State) : State := moveState .off cause (haltBlocks s)

/-! ### Entry to LEAVING (R102) -/

/-- The Round Engine on entry to LEAVING or FAULT: idle, window closed, the rest kept (R72). -/
def idleRounds (s : State) : State := { s with rounds.active := false, rounds.windowOpen := false }

/-- A taken LEAVE (R102): every need but LEAVE withdrawn, a frame in flight left to run. -/
def enterLeaving (s : State) : State :=
  let t := zeroSlew (idleRounds (clearTable s))
  raiseNeed .leave .controller
    (moveState .leaving .hostLeave
      { t with
        engine.needs := []
        ctl.listenTimer := none
        ctl.leaveFailures := 0
        capture.marks := [] })

/-! ### Entry to FAULT (R107, R108) -/

/-- The Line Interface at entry to FAULT: the driver released at once (R2), and where a cell or a gap is in progress, SETTLE, since the
Frame Engine ends the frame (R13, R38). -/
def Line.faulted (l : Line) : Line :=
  let r := { l with driver := false, pattern := none }
  if l.phase = .cell ∨ l.phase = .gap then r.settled else r

/-- What entry to FAULT does to every block but the controller's state and the reports (R108). -/
def faultBlocks (s : State) : State :=
  let t := zeroSlew (idleRounds (faultEntries s))
  { t with
    line := s.line.faulted
    engine := ⟨[], s.engine.nextAge, none, s.engine.run⟩
    base.latch := none
    ctl.listenTimer := none
    capture.marks := [] }

/-- STATE_CHANGED and the fault cause of an entry to FAULT (R93, R107). -/
def moveToFault (cause : FaultCause) (move : MoveCause) (s : State) : State :=
  moveState .fault move { s with ctl.faultCause := cause }

/-- Entry to FAULT (R107, R108, R148). The order of STATE_CHANGED and the Action Protocol's reports is the world's. -/
def enterFault (cause : FaultCause) (move : MoveCause) (order : FaultOrder) (s : State) : State :=
  let reports := faultReports s.engine.needs s.table.entries
  match order with
  | .stateFirst => queueReports reports (moveToFault cause move (faultBlocks s))
  | .protocolFirst => moveToFault cause move (queueReports reports (faultBlocks s))

/-! ### LISTEN (R97, R98) -/

/-- The listen timeout has come: common time less the initial time, modulo 2^64, reaches 3 × L (R97). -/
def State.listenExpired (s : State) : Bool :=
  match s.ctl.listenTimer with
  | some start => s.ctl.state == .listen && decide (3 * s.cfg.roundLength ≤ (s.now - start).toNat)
  | none => false

/-- LISTEN_TIMEOUT (R97): the station founds its own time; the founding notice makes the round state reset (R78). -/
def listenTimeout (s : State) : State :=
  if s.listenExpired then resetRounds (moveState .synced .founded { s with ctl.listenTimer := none }) else s

/-- Adoption of a SYNC in LISTEN (R98): an adoption step, and the move to JOINING. -/
def adopt (offset : Int) (s : State) : State :=
  moveState .joining .adopted { requestStep ⟨offset, .adopt⟩ s with ctl.listenTimer := none }

/-! ### The rows -/

/-- The row POWER_ON_RESET (R93). -/
def execPowerOnReset (pins : StrapPins) (s : State) : Host.Outcome State Fault Refusal := .next (powerOn pins s)

/-- The row RESET_N (R3, R93). -/
def execResetN (pins : StrapPins) (s : State) : Host.Outcome State Fault Refusal := .next (releaseReset pins s)

/-- The row RESET_N_ASSERTED (R167, R2, R164). -/
def execResetNAsserted (s : State) : Host.Outcome State Fault Refusal := .next (assertReset s)

/-- The row LISTEN_TIMEOUT (R97). -/
def execListenTimeout (s : State) : Host.Outcome State Fault Refusal := .next (listenTimeout s)

end Sys2Proof.Machine
end

