-- ==== Sys2Proof/Machine/PeerTable.lean ====
section
/-! DEFINITION. The Peer Table (chapter 4): membership notices, SYNC and LEAVE reception, judgement at the close. -/

namespace Sys2Proof.Machine

/-! ### Membership notices (R64) -/

/-- A joined notice (R64): the Round Engine's peered flag (R89), and the return from HOLDOVER (R100). -/
def joinedNotice (s : State) : State :=
  match s.ctl.state with
  | .synced => { s with rounds.peered := true }
  | .holdover => moveState .synced .peerReturned s
  | .off => s
  | .listen => s
  | .joining => s
  | .leaving => s
  | .fault => s

/-- A left notice of a station (R64): the Action Protocol prunes and purges (R133, R141). -/
def leftNotice (n : Station) (s : State) : State := protocolLeft n s

/-! ### SYNC reception (R59 to R62) -/

/-- The fields of its sender's entry that a SYNC carries (R59). -/
def Peer.heard (n : Station) (c : SyncContent) (p : Peer) : Peer :=
  { p with
    present := true
    reported := some c.sender
    lastRound := some c.round
    count := some c.count
    anchor := some (lowestWith n c.members) }

/-- The member flag after a SYNC (R61). -/
def memberAfter (sender : SenderState) (suspect disagreeing : Bool) : Bool :=
  match sender with
  | .joining => false
  | .synced => !suspect && !disagreeing
  | .holdover => !suspect && !disagreeing

/-- A SYNC's offset is recorded as a sample: its round is the current one modulo 65,536 and the window is open (R60). -/
def State.recordsSample (s : State) (c : SyncContent) : Bool :=
  c.round == BitVec.ofNat 16 s.rounds.round && s.rounds.windowOpen

/-- The sample and the disagreeing flag of a SYNC (R60, R76). -/
def takeSample (n : Station) (c : SyncContent) (offset : Int) (s : State) : State :=
  let p := { s.peer n with disagreeing := exceeds offset s.cfg.thresholdNs }
  if s.recordsSample c then
    { setPeer n { p with sample := some offset } s with rounds.samples := insertSample n offset s.rounds.samples }
  else setPeer n p s

/-- The member flag of a SYNC's sender (R61): PEER_JOINED and a joined notice, or a left notice without a report. -/
def setMember (n : Station) (member : Bool) (s : State) : State :=
  let p := s.peer n
  let t := setPeer n { p with member } s
  if member && !p.member then joinedNotice (queueReport (.peerJoined n) t)
  else if !member && p.member then leftNotice n t
  else s

/-- A well-formed SYNC in JOINING, SYNCED or HOLDOVER (R58 to R61). -/
def syncReceived (n : Station) (c : SyncContent) (offset : Int) (s : State) : State :=
  let t := takeSample n c offset (setPeer n ((s.peer n).heard n c) s)
  setMember n (memberAfter c.sender (t.peer n).suspect (t.peer n).disagreeing) t

/-- A well-formed SYNC in LISTEN (R62, R98): the entry's carried fields, and adoption where the sender is SYNCED or HOLDOVER. -/
def syncHeard (n : Station) (c : SyncContent) (offset : Int) (s : State) : State :=
  let t := setPeer n ((s.peer n).heard n c) s
  match c.sender with
  | .joining => t
  | .synced => adopt offset t
  | .holdover => adopt offset t

/-! ### Leaving the table (R63, R65) -/

/-- An entry becomes absent with PEER_DROPPED, and a left notice where it was a member (R63, R65). DEDUCED (notes/assumptions/47.md):
PEER_DROPPED stands before the HELD_DROPPED reports of the notice. -/
def dropPeer (n : Station) (cause : DropCause) (s : State) : State :=
  let t := queueReport (.peerDropped n cause) (setPeer n Peer.absent s)
  if (s.peer n).member then leftNotice n t else t

/-- An accepted LEAVE (R63, R76). DESIGN CHOICE (notes/assumptions/42.md): behind a close of the same period that made the peer a suspect,
with its PEER_DROPPED (R66), the LEAVE queues a second PEER_DROPPED. -/
def leaveReceived (n : Station) (s : State) : State :=
  if (s.peer n).present then dropPeer n .leave { s with rounds.samples := dropSample n s.rounds.samples } else s

/-! ### Judgement at the close (R65 to R67) -/

/-- A present entry without a sample at a close (R65). -/
def countMiss (n : Station) (s : State) : State :=
  let p := s.peer n
  if 3 ≤ p.missRun + 1 then dropPeer n .misses s else setPeer n { p with missRun := p.missRun + 1 } s

/-- A member with a sample at a close (R66): its outlier run, and SUSPECT at 4. DEDUCED (notes/assumptions/47.md): PEER_DROPPED stands
before the HELD_DROPPED reports of the left notice. -/
def judgeMember (n : Station) (residual : Int) (s : State) : State :=
  let p := s.peer n
  if exceeds residual s.cfg.syncTolerance then
    if 4 ≤ p.outlierRun + 1 then
      leftNotice n
        (queueReport (.peerDropped n .suspect)
          (setPeer n { p with outlierRun := 4, suspect := true, member := false, goodRun := 0 } s))
    else setPeer n { p with outlierRun := p.outlierRun + 1 } s
  else setPeer n { p with outlierRun := 0 } s

/-- A suspect with a sample at a close (R67): its good run, and PEER_RESTORED at 4. -/
def judgeSuspect (n : Station) (residual : Int) (s : State) : State :=
  let p := s.peer n
  if exceeds residual s.cfg.syncTolerance then setPeer n { p with goodRun := 0 } s
  else if 4 ≤ p.goodRun + 1 then
    let member := (p.reported == some .synced || p.reported == some .holdover) && !p.disagreeing
    let t :=
      queueReport (.peerRestored n)
        (setPeer n { p with suspect := false, outlierRun := 0, goodRun := 0, member } s)
    if member then joinedNotice t else t
  else setPeer n { p with goodRun := p.goodRun + 1 } s

/-- One entry at stage 4 of a close (R65 to R67). -/
def judgePeer (c : Int) (n : Station) (s : State) : State :=
  let p := s.peer n
  match p.present, p.sample with
  | false, _ => s
  | true, none => countMiss n s
  | true, some v =>
    let t := setPeer n { p with missRun := 0 } s
    if p.member then judgeMember n (v - c) t else if p.suspect then judgeSuspect n (v - c) t else t

/-- Clear the member flag of every entry, at a yield (R68). -/
def clearMembers (s : State) : State := { s with peers := s.peers.map fun p => { p with member := false } }

end Sys2Proof.Machine
end

