-- ==== Sys2Proof/Machine/Rounds.lean ====
section
/-! DEFINITION. The Round Engine (chapter 5): round start, the close and its stages, the merge rule, and the step notice. -/

namespace Sys2Proof.Machine

/-! ### Round start (R73) -/

/-- A round start is due: active, and common time lies in another round; in a period with a step notice the reset comes first
(R73, R77). -/
def State.roundStartDue (s : State) : Bool :=
  s.rounds.active && s.noticeDue.isNone && roundOf s.cfg s.now != s.rounds.round

/-- ROUND_START (R73). -/
def roundStart (s : State) : State :=
  if s.roundStartDue then
    raiseNeed .sync .roundEngine
      { s with
        rounds.round := roundOf s.cfg s.now
        rounds.windowOpen := true
        rounds.syncSent := false }
  else s

/-! ### The correction (R80, R81) -/

/-- A sample is used in the correction (R80). -/
def usedSample (threshold : Nat) (peers : Vector Peer 16) (x : Station × Int) : Bool :=
  let p := peers[x.1]
  p.member && !p.suspect && p.reported == some .synced && !exceeds x.2 threshold

/-- The used samples at the start of the close (R80). -/
def State.usedSamples (s : State) : List Int :=
  (s.rounds.samples.filter (usedSample s.cfg.thresholdNs s.peers)).map Prod.snd

/-- The correction of the used samples (R81): with the own 0 ns they form S; from four values on, one largest and one smallest are
removed; the mean of the rest is rounded toward zero. -/
def correction (used : List Int) : Int :=
  let n := used.length + 1
  let sum := used.foldl (· + ·) 0
  if n ≤ 3 then sum.tdiv n else (sum - used.foldl max 0 - used.foldl min 0).tdiv (n - 2)

/-- The requested slew term q: c × 1,000 divided by L in ms, rounded toward zero (R82). -/
def slewQuotient (c : Int) (roundMs : Nat) : Int := (c * 1000).tdiv roundMs

/-! ### The merge rule (R85, R86) -/

/-- A merge candidate: sample, reported state SYNCED or HOLDOVER, disagreeing, sample beyond the step threshold (R85). -/
def isCandidate (threshold : Nat) (peers : Vector Peer 16) (x : Station × Int) : Bool :=
  let p := peers[x.1]
  (p.reported == some .synced || p.reported == some .holdover) && p.disagreeing && exceeds x.2 threshold

/-- A candidate: its station, its sample, its reported member count and its reported anchor. -/
structure Candidate where
  station : Station
  sample : Int
  count : Nat
  anchor : Station
deriving DecidableEq, Repr

/-- The first candidate goes before the second: larger count, then lower anchor, then lower station number (R85). -/
def Candidate.beats (a b : Candidate) : Bool :=
  decide (b.count < a.count)
    || (a.count == b.count
      && (decide (a.anchor < b.anchor) || (a.anchor == b.anchor && decide (a.station < b.station))))

/-- The selected candidate of a list (R85). -/
def selectCandidate : List Candidate → Option Candidate
  | [] => none
  | a :: rest =>
    match selectCandidate rest with
    | none => some a
    | some b => if b.beats a then some b else some a

/-- The merge candidates (R85). -/
def State.candidates (s : State) : List Candidate :=
  (s.rounds.samples.filter (isCandidate s.cfg.thresholdNs s.peers)).map fun x =>
    ⟨x.1, x.2, (s.peer x.1).count.getD 0, (s.peer x.1).anchor.getD x.1⟩

/-- The station yields to a candidate (R86). -/
def State.yieldsTo (s : State) (k : Candidate) : Bool :=
  decide (s.memberCount < k.count) || (k.count == s.memberCount && decide (k.anchor < s.anchor))

/-- The candidate that the station yields to at this close, if any (R85, R86). -/
def State.yieldTarget (s : State) : Option Candidate :=
  match selectCandidate s.candidates with
  | some k => if s.yieldsTo k then some k else none
  | none => none

/-! ### The stages of the close (R79) -/

/-- The stations in the order of a close: as listed, then the others in ascending order. -/
def peerOrder (o : CloseOrder) : List Station :=
  o.stations ++ allStations.filter fun n => !o.stations.contains n

/-- Stage 1 (R74): the window closes, and an unsent SYNC is withdrawn. -/
def closeStage1 (s : State) : State :=
  let t := { s with rounds.windowOpen := false }
  if s.rounds.syncSent then t else withdrawNeed .roundEngine t

/-- Stage 3 (R82 to R84): the slew and trim requests, and one RATE_LIMIT where either is clamped. `n` counts the values of S. -/
def closeStage3 (c : Int) (n : Nat) (s : State) : State :=
  let q := slewQuotient c (roundMs s.cfg.roundCode)
  let a := requestSlew q s
  let b := if 2 ≤ n then requestTrim (a.1.base.trim + q.tdiv 4) a.1 else (a.1, false)
  if a.2 || b.2 then queueReport .rateLimit b.1 else b.1

/-- Stage 4 (R65 to R67): every entry judged. -/
def closeStage4 (c : Int) (order : List Station) (s : State) : State := order.foldl (fun s n => judgePeer c n s) s

/-- The left notices of a yield, one for each station that was a member (R87). -/
def yieldNotices (left : List Station) (s : State) : State := left.foldl (fun s n => leftNotice n s) s

/-- The move of a yield (R101). -/
def yieldMove (s : State) : State := moveState .joining .merged s

/-- The three reporting parts of a yield, in the world's order (R87, R101). DESIGN CHOICE (notes/assumptions/13.md): all left notices of a
yield are one part, so that neither STATE_CHANGED nor MERGE_DROPPED stands between two of their reports. -/
def yieldParts (order : YieldOrder) (left : List Station) (s : State) : State :=
  match order with
  | .noticesDiscardMove => yieldMove (discardShared (yieldNotices left s))
  | .noticesMoveDiscard => discardShared (yieldMove (yieldNotices left s))
  | .discardNoticesMove => yieldMove (yieldNotices left (discardShared s))
  | .discardMoveNotices => yieldNotices left (yieldMove (discardShared s))
  | .moveNoticesDiscard => discardShared (yieldNotices left (yieldMove s))
  | .moveDiscardNotices => yieldNotices left (discardShared (yieldMove s))

/-- A yield (R87): the merge step with the candidate's sample, the member flags cleared, and the reporting parts. -/
def yieldTo (k : Candidate) (o : CloseOrder) (s : State) : State :=
  let left := (peerOrder o).filter fun n => (s.peer n).member
  let t := clearMembers (requestStep ⟨k.sample, .merge⟩ s)
  yieldParts o.yield left { t with rounds.joinRun := 0 }

/-- Stage 6 (R88, R89, R100): join qualification in JOINING. -/
def closeStage6 (c : Int) (s : State) : State :=
  if s.ctl.state = .joining then
    if exceeds c s.cfg.syncTolerance then { s with rounds.joinRun := 0 }
    else if 3 ≤ s.rounds.joinRun + 1 then
      let t := { s with rounds.joinRun := 0, rounds.peered := s.rounds.peered || s.members != 0 }
      moveState .synced .qualified t
    else { s with rounds.joinRun := s.rounds.joinRun + 1 }
  else s

/-- Stage 7 (R90): the holdover test of a station that was SYNCED at the start of the close. -/
def closeStage7 (before : StationState) (s : State) : State :=
  if before = .synced ∧ s.ctl.state = .synced ∧ s.rounds.peered ∧ s.members = 0 then
    moveState .holdover .holdoverEntered s
  else s

/-- Stages 5 to 7 (R79): a yield, or qualification and the holdover test. -/
def closeStages567 (c : Int) (o : CloseOrder) (before : StationState) (s : State) : State :=
  match s.yieldTarget with
  | some k => yieldTo k o s
  | none => closeStage7 before (closeStage6 c s)

/-- A close is due: active, the window open, and common time at or past the close point; in a period with a step notice the reset comes
first (R79, R77). A close point past 2^64 - 1 is never reached (notes/assumptions/37.md). -/
def State.closeDue (s : State) : Bool :=
  s.rounds.active && s.rounds.windowOpen && s.noticeDue.isNone
    && decide (closePoint s.cfg s.rounds.round ≤ s.now.toNat)

/-- The close as one operation (R79): the correction is computed on the state that stage 1 leaves. -/
def closeRound (o : CloseOrder) (s : State) : State :=
  let used := s.usedSamples
  let c := correction used
  let s1 := closeStage1 s
  let s2 := { s1 with rounds.lastCorrection := c }
  let s3 := closeStage3 c (used.length + 1) s2
  let s4 := closeStage4 c (peerOrder o) s3
  clearSamples (closeStages567 c o s.ctl.state s4)

/-- ROUND_CLOSE (R79). -/
def roundClose (o : CloseOrder) (s : State) : State := if s.closeDue then closeRound o s else s

/-! ### The step notice (R47, R48, R77, R121, R122) -/

/-- The notice of the period has been taken. -/
def takeNotice (st : TimeStep) (s : State) : State := { s with base.notice := some ⟨st, false⟩ }

/-- The latch at a step notice (R51). -/
def shiftLatch (amount : Int) (s : State) : State :=
  { s with base.latch := s.base.latch.map (Latch.shift amount s.period) }

/-- The deadline events that stand before a due of the same period (R115), at a forward step. -/
def answerPassedDeadlines (s : State) : State :=
  (s.table.entries.filter s.deadlineBeforeDue).foldl (fun s e => answerDeadline e s) s

/-- The Action Table at a step notice (R121, R122): pulse ends shifted; at a forward step the deadlines and then the passed
dues. DESIGN CHOICE (notes/assumptions/48.md): a follow-up's deadline is no deadline event, and is not compared before these dues. -/
def tableNotice (st : TimeStep) (s : State) : State :=
  let t := shiftPulses st.amount s
  if 0 < st.amount then fireAllLate (answerPassedDeadlines t) else t

/-- The Round Engine at a step notice (R77): reset in JOINING, SYNCED and HOLDOVER, nothing where it is idle for good. -/
def roundsNotice (s : State) : State := if s.ctl.state.takesPart then resetRounds s else s

/-- STEP_NOTICE (R47, R48). The order of STEPPED and the late firings' reports is the world's. -/
def stepNotice (steppedFirst : Bool) (s : State) : State :=
  match s.noticeDue with
  | some st =>
    let t := shiftLatch st.amount (takeNotice st s)
    let stepped := queueReport (.stepped st.amount st.cause)
    roundsNotice (if steppedFirst then tableNotice st (stepped t) else stepped (tableNotice st t))
  | none => s

/-! ### The rows -/

/-- The row ROUND_START (R73). -/
def execRoundStart (s : State) : Host.Outcome State Fault Refusal := .next (roundStart s)

/-- The row ROUND_CLOSE (R79). -/
def execRoundClose (order : CloseOrder) (s : State) : Host.Outcome State Fault Refusal := .next (roundClose order s)

/-- The row STEP_NOTICE (R47). -/
def execStepNotice (steppedFirst : Bool) (s : State) : Host.Outcome State Fault Refusal := .next (stepNotice steppedFirst s)

end Sys2Proof.Machine
end

