-- ==== Sys2Proof/Machine/Capture.lean ====
section
/-! DEFINITION. The Capture Unit (chapter 9): reading the inputs, records, marks and their sharing. -/

namespace Sys2Proof.Machine

/-- The loss count of a capture record rises by one, saturating at 255 (R152). -/
def CaptureRecord.lose (r : CaptureRecord) : CaptureRecord := { r with loss := min 255 (r.loss + 1) }

/-- A record joins the capture queue, or is lost and counted on the tail (R152). -/
def joinCapture (r : CaptureRecord) (s : State) : State :=
  { s with capture.records := joinQueue 16 CaptureRecord.lose r s.capture.records }

/-- An edge setting admits an edge (R150). -/
def EdgeSetting.admits (setting : EdgeSetting) (edge : CaptureEdge) : Bool :=
  match setting, edge with
  | .both, _ => true
  | .rise, .rise => true
  | .fall, .fall => true
  | .rise, .fall => false
  | .fall, .rise => false

/-- The edge between two readings of an input (R150). -/
def edgeBetween (before : Option Bool) (now : Bool) : Option CaptureEdge :=
  match before, now with
  | some false, true => some .rise
  | some true, false => some .fall
  | some true, true => none
  | some false, false => none
  | none, _ => none

/-- The admitted edge of one input in a period (R150). -/
def admittedEdge (setting : EdgeSetting) (before : Option Bool) (now : Bool) : Option CaptureEdge :=
  (edgeBetween before now).filter setting.admits

/-- The Capture Unit reads one input (R150). -/
def readCapture (c : ConfigRecord) (cap : BitVec 4) (u : CaptureUnit) (i : Channel) : CaptureUnit :=
  { u with
    sampled := u.sampled.set i (some (cap.getLsbD i.val))
    edges := u.edges.set i (admittedEdge c.capture[i].edge u.sampled[i] (cap.getLsbD i.val)) }

/-- The Capture Unit reads its inputs once in a period, in every state but OFF (R150). -/
def readCaptures (s : State) : State :=
  if s.ctl.state = .off then s
  else { s with capture := allChannels.foldl (readCapture s.cfg s.pins.cap) s.capture }

/-- The input whose edge is taken next: the lowest with an edge still to be taken (R151). -/
def State.nextEdge (s : State) : Option (Channel × CaptureEdge) :=
  (allChannels.filterMap fun i => s.capture.edges[i].map fun e => (i, e)).head?

/-- A shared edge places a mark (R153): JOINING, SYNCED or HOLDOVER with room in the MARK queue. -/
def State.placesMark (s : State) (i : Channel) : Bool :=
  s.cfg.capture[i].share && s.ctl.state.takesPart && decide (s.capture.marks.length < 4)

/-- A mark joins the MARK queue; one that becomes the head raises the MARK need (R153, R154). -/
def joinMarks (m : Mark) (s : State) : State :=
  let t := { s with capture.marks := s.capture.marks ++ [m] }
  if s.capture.marks.isEmpty then raiseNeed .mark .markQueue t else t

/-- The local record and the mark of an admitted edge (R151, R153). -/
def recordEdge (i : Channel) (e : CaptureEdge) (s : State) : State :=
  let st := s.ctl.state
  let placed := s.placesMark i
  let t :=
    joinCapture ⟨.loc, i, e, s.stamp, st.unsynced, st.isHoldover, s.cfg.capture[i].share && !placed, 0⟩ s
  if placed then joinMarks ⟨i, e, s.stamp, st.unsynced, st.isHoldover⟩ t else t

/-- CAPTURE_EDGE (R151): the next admitted edge of the period makes its record; in LEAVING it makes none. -/
def captureEdge (s : State) : State :=
  match s.nextEdge with
  | some (i, e) =>
    let t := { s with capture.edges := s.capture.edges.set i none }
    if s.ctl.state.captures then recordEdge i e t else t
  | none => s

/-- A MARK at its acceptance instant (R155): a remote record of a well-formed mark. -/
def memberMark (sender : Station) (payload : List Byte) (s : State) : State × Bool :=
  match decodeMark payload with
  | some m => (joinCapture ⟨.remote sender, m.input, m.edge, m.time, m.unsynced, m.holdover, false, 0⟩ s, true)
  | none => (s, false)

/-- The head mark's frame has completed (R154): the head leaves, and a new head raises its need. -/
def markCompleted (s : State) : State :=
  let t := { s with capture.marks := s.capture.marks.tail }
  if t.capture.marks.isEmpty then t else raiseNeed .mark .markQueue t

/-! ### The rows -/

/-- The row CAPTURE_EDGE (R151). -/
def execCaptureEdge (s : State) : Host.Outcome State Fault Refusal := .next (captureEdge s)

end Sys2Proof.Machine
end

