-- ==== Sys2Proof/Machine/FrameEngine.lean ====
section
/-! DEFINITION. The Frame Engine (chapter 2): check value, selection, frame contents, access, outcomes, failures and acceptance. -/

namespace Sys2Proof.Machine

/-! ### The check value (R19) -/

/-- One data bit of the check computation (R19). -/
def crcBit (r : BitVec 16) (bit : Bool) : BitVec 16 := if r.msb != bit then r <<< 1 ^^^ 0x1021 else r <<< 1

/-- One cell of the check computation, most significant bit first (R19). -/
def crcByte (r : BitVec 16) (b : Byte) : BitVec 16 := (byteBits b).foldl crcBit r

/-- The check register at its start: all bits set (R19). -/
def crcInit : BitVec 16 := 0xFFFF

/-- The check value over cells (R19). -/
def crc16 (bytes : List Byte) : BitVec 16 := bytes.foldl crcByte crcInit

/-- The most significant byte of a check value. -/
def highByte (v : BitVec 16) : Byte := v.extractLsb' 8 8

/-- The least significant byte of a check value. -/
def lowByte (v : BitVec 16) : Byte := v.extractLsb' 0 8

/-! ### Reading a frame's cells (R17) -/

/-- The cell of an index, as its byte. -/
def Frame.byte (f : Frame) (k : Nat) : Byte := ((f.cells[k]?).map Prod.fst).getD 0

/-- The kind, once its cell has been read (R29). -/
def Frame.kind? (f : Frame) : Option FrameKind := if f.cells = [] then none else frameKind? (f.byte 0)

/-- The payload length N that the length cell gives (R17). -/
def Frame.length (f : Frame) : Nat := (f.byte 2).toNat

/-- The payload cells. -/
def Frame.payload (f : Frame) : List Byte := ((f.cells.drop 3).take f.length).map Prod.fst

/-- The check is good: the received check cells equal the register (R19). -/
def Frame.checkGood (f : Frame) : Bool :=
  f.byte (f.length + 3) == highByte f.crc && f.byte (f.length + 4) == lowByte f.crc

/-- The sender cell as a station number, if it is 0 to 15 (R29). -/
def Frame.sender? (f : Frame) : Option Station :=
  if h : (f.byte 1).toNat < 16 then some ⟨(f.byte 1).toNat, h⟩ else none

/-- The frame is a duplicate: check good, sender cell the own number (R40). -/
def Frame.isDuplicate (own : Station) (f : Frame) : Bool := f.checkGood && f.sender? == some own

/-- The frame test (R29) for a kind: check good, the kind's payload length, a sender of 0 to 15. -/
def Frame.passes (kind : FrameKind) (f : Frame) : Option Station :=
  if f.checkGood && f.kind? == some kind && f.length == kind.length then f.sender? else none

/-! ### Drive patterns (R14) -/

/-- The pattern of a byte it sends: start driven, data bits of value 0 driven, stop released (R14, R27). -/
def bytePattern (b : Byte) : BitVec 10 :=
  [0, 1, 2, 3, 4, 5, 6, 7].foldl (fun p i => if b.getMsbD i then p else p ||| 1#10 <<< (i + 1)) 1#10

/-- The pattern of an ack cell of a frame it sends: the start bit alone (R31). -/
def ackCellPattern : BitVec 10 := 1#10

/-- The pattern of the own ack slot: the one data bit (R32). -/
def slotPattern (own : Station) : BitVec 10 := 1#10 <<< (own.val % 8 + 1)

/-- The pattern of cell `k` of a frame whose header and payload cells are `out` (R27, R31). -/
def sendPattern (out : List Byte) (k : Nat) : BitVec 10 :=
  if k < out.length then bytePattern (out.getD k 0)
  else if k = out.length then bytePattern (highByte (crc16 out))
  else if k = out.length + 1 then bytePattern (lowByte (crc16 out))
  else ackCellPattern

/-! ### Selection (R24) and content (R27) -/

/-- The selection class of a kind (R24). -/
def FrameKind.selectionClass : FrameKind → Nat
  | .sync => 1
  | .commit => 2
  | .cancel => 2
  | .propose => 3
  | .mark => 4
  | .leave => 5

/-- One need goes before another: by class, then by age (R24). -/
def Need.beats (a b : Need) : Bool :=
  decide (a.kind.selectionClass < b.kind.selectionClass)
    || (a.kind.selectionClass == b.kind.selectionClass && decide (a.age < b.age))

/-- The need that selection takes (R24). -/
def selectNeed : List Need → Option Need
  | [] => none
  | a :: rest =>
    match selectNeed rest with
    | none => some a
    | some b => if b.beats a then some b else some a

/-- The set that a COMMIT carries: the required set of a COMMITTING entry, the armed set in follow-up (R131). -/
def Entry.commitSet (e : Entry) : StationSet := if e.state = .committing then e.req else e.armedSet.getD 0

/-- The payload that a need's source holds at selection (R27, R75, R131, R154). The reference-edge time of a SYNC is filled in later (R52);
a source that is gone holds no need (R23), so its payload is never read. -/
def needPayload (need : Need) (s : State) : List Byte :=
  match need.kind, need.source with
  | .sync, _ => syncPayload s.rounds.round s.ctl.state s.memberCount s.members 0
  | .propose, .entry id => ((s.entry? id).map proposePayload).getD []
  | .commit, .entry id => ((s.entry? id).map fun e => commitPayload id.seq e.commitSet).getD []
  | .cancel, .entry id => [id.seq]
  | .mark, _ => ((s.capture.marks.head?).map markPayload).getD []
  | .leave, _ => []
  | .propose, _ => []
  | .commit, _ => []
  | .cancel, _ => []

/-- The header and payload cells of a need's frame (R17, R27). -/
def frameCells (need : Need) (s : State) : List Byte :=
  need.kind.code :: BitVec.ofNat 8 s.own.val :: BitVec.ofNat 8 need.kind.length :: needPayload need s

/-- A frame in flight at its start (2.2). -/
def Frame.opened (role : FrameRole) : Frame := ⟨role, [], crcInit, false, 0, false⟩

/-- The cell that begins at the edge of this period (R9). -/
def Line.beginCell (period : Nat) (l : Line) : Line :=
  { l with
    phase := .cell
    edge := period
    bitPos := some 0
    shift := []
    gapCount := 0
    finding := none }

/-! ### Access and hard synchronisation (R25, R26) -/

/-- The station opens a transmit frame for a selected need, with the pattern of cell 0 (R25, R26). -/
def openTransmit (need : Need) (s : State) : State :=
  let out := frameCells need s
  { s with
    engine.frame := some (Frame.opened (.transmit need out))
    line.pattern := some (sendPattern out 0) }

/-- The conditions of access (R25). -/
def State.mayAccess (s : State) : Bool :=
  s.ctl.state.drives && s.engine.frame.isNone && s.line.condition == .quiet && s.line.phase == .hunt

/-- The reading of the period with the own driver going dominant in it (R1, R25): dominant where the driver works. -/
def driveNow (s : State) : State :=
  if s.driverEnabled then
    if s.pins.driverFails then { s with line.driver := true }
    else
      { s with
        line.driver := true
        line.reading := .dominant
        line.quietCount := 0
        line.stuckCount := min (24 * s.bitTime) (s.line.stuckCount + 1)
        line.condition := .active }
  else s

/-- ACCESS (R25): the station selects a need, opens its frame and drives the start edge of cell 0 in this period. -/
def access (s : State) : State :=
  if s.mayAccess then
    match selectNeed s.engine.needs with
    | some need => latchFrameStart (openTransmit need (driveNow { s with line := s.line.beginCell s.period }))
    | none => s
  else s

/-- A frame start is handed on (R9, R26): the latch is set, and the station joins the edge as a sender where it holds a need, else it
receives; in FAULT and OFF the Frame Engine takes nothing (R21). -/
def takeFrameStart (s : State) : State :=
  let t := latchFrameStart { s with line := s.line.beginCell s.period }
  match s.ctl.state with
  | .off => t
  | .fault => t
  | .listen => { t with engine.frame := some (Frame.opened .receive) }
  | .joining | .synced | .holdover | .leaving =>
    match selectNeed s.engine.needs with
    | some need => openTransmit need t
    | none => { t with engine.frame := some (Frame.opened .receive) }

/-- FRAME_START (R26). -/
def frameStart (s : State) : State := if s.line.finding = some .frameStart then takeFrameStart s else s

/-! ### Outcomes (R33, R34) -/

/-- The failed outcome of a LEAVE (R103): counted, and the fourth ends LEAVING. -/
def leaveFailed (s : State) : State :=
  if 4 ≤ s.ctl.leaveFailures + 1 then goOff .leaveFailed s
  else { s with ctl.leaveFailures := s.ctl.leaveFailures + 1 }

/-- The failed outcome reported to the need's source (R34): the need stays in the list; a source that let it go is not moved (R23). -/
def reportFailed (need : Need) (s : State) : State :=
  match need.source with
  | .roundEngine => s
  | .markQueue => s
  | .entry id => entryFailed need.kind id (s.holdsNeed need) s
  | .controller => if s.holdsNeed need && s.ctl.state == .leaving then leaveFailed s else s

/-- The completed outcome reported to the need's source (R34); `held` says that the source still held the need (R23). DESIGN CHOICE
(notes/assumptions/46.md): a SYNC in flight whose need the next round start has replaced has no effect either; that one round's need stands and
its SYNC-sent flag stays clear. -/
def reportCompleted (need : Need) (acks : StationSet) (held : Bool) (s : State) : State :=
  match need.source with
  | .roundEngine => if held then { s with rounds.syncSent := true } else s
  | .markQueue => if held then markCompleted s else s
  | .entry id => entryCompleted need.kind id acks held s
  | .controller => if held && s.ctl.state == .leaving then goOff .left s else s

/-- Check complete reported to the need's source (R34). -/
def reportCheckComplete (need : Need) (s : State) : State :=
  match need.source with
  | .entry id => entryCheckComplete need.kind id s
  | .roundEngine => s
  | .markQueue => s
  | .controller => s

/-- The check-point flag of the frame in flight is set (R29, R34). -/
def markCheckPoint (s : State) : State :=
  { s with engine.frame := s.engine.frame.map fun f => { f with checkPoint := true } }

/-- CHECK_COMPLETE (R34): the check-point flag, the end of a SYNC's latch (R51), and the report to the source. -/
def checkComplete (s : State) : State :=
  match s.line.finding, s.engine.frame.map Frame.role with
  | some .ownCheckDone, some (.transmit need _) =>
    let t := clearFinding (markCheckPoint s)
    reportCheckComplete need (if need.kind = .sync then { t with base.latch := none } else t)
  | _, _ => s

/-- FRAME_COMPLETED (R33): the need leaves the list, the run becomes 0, and the outcome is reported with the ack set. -/
def frameCompleted (s : State) : State :=
  match s.line.finding, s.engine.frame with
  | some .ownFrameDone, some f =>
    match f.role with
    | .transmit need _ =>
      let t := removeNeed need (endFrame s)
      reportCompleted need f.ackSet (s.holdsNeed need) { t with engine.run := 0 }
    | .receive => s
  | _, _ => s

/-! ### Failures (R35 to R39) -/

/-- The transmit failure run rises by one, saturating at 16 (R39). -/
def countFailure (s : State) : State := { s with engine.run := min 16 (s.engine.run + 1) }

/-- A run of 16 takes a station that drives to FAULT (LINE) (R39, R107). -/
def faultAtLimit (order : FaultOrder) (s : State) : State :=
  if s.engine.run = 16 ∧ s.ctl.state.drives then enterFault .line .line order s else s

/-- A transmission failure of an own frame: counted, the outcome failed reported, and FAULT at the limit, unless the outcome took the
station to OFF (R39, R103). -/
def failOwn (order : FaultOrder) (need : Need) (s : State) : State :=
  faultAtLimit order (reportFailed need (countFailure s))

/-- A cut by the line (R37): the frame in flight ends; an own frame is a transmission failure. -/
def cutByLine (order : FaultOrder) (s : State) : State :=
  match s.engine.frame.map Frame.role with
  | some (.transmit need _) => failOwn order need (endFrame s)
  | some .receive => endFrame s
  | none => endFrame s

/-- The Line Interface after a false start on a first cell (R10): HUNT on a QUIET line, with the quiet count full. -/
def restoreQuiet (s : State) : State :=
  { s with
    line :=
      { s.line with
        condition := .quiet
        quietCount := 12 * s.bitTime
        phase := .hunt
        bitPos := none
        shift := []
        gapCount := 0
        pattern := none
        finding := none } }

/-- A recessive bit 0 sample (R10, R36): on a first cell the frame start is discarded, and an own driven bit is a driver failure; on a later
cell the frame is cut, which for an own frame is the one failure that the two reports make. -/
def startBitRecessive (order : FaultOrder) (driven : Bool) (s : State) : State :=
  match s.engine.frame with
  | none => restoreQuiet { s with base.latch := none }
  | some f =>
    if f.cells = [] then
      let t := restoreQuiet { s with engine.frame := none, base.latch := none }
      match f.role with
      | .transmit need _ => if driven then failOwn order need t else t
      | .receive => t
    else cutByLine order s

/-- FALSE_START (R10). -/
def falseStart (order : FaultOrder) (s : State) : State :=
  match s.line.finding with
  | some (.falseStart driven) => startBitRecessive order driven s
  | _ => s

/-- STOP_ERROR (R12). -/
def stopError (order : FaultOrder) (s : State) : State :=
  if s.line.finding = some .stopError then cutByLine order s else s

/-- GAP_EXPIRY (R13). -/
def gapExpiry (order : FaultOrder) (s : State) : State :=
  if s.line.finding = some .gapExpired then cutByLine order s else s

/-- The line becomes QUIET in this period (R6). -/
def State.quietDue (s : State) : Bool :=
  s.line.phase != .idle && s.line.condition != .quiet && decide (12 * s.bitTime ≤ s.line.quietCount)

/-- LINE_QUIET (R6, R8). -/
def lineQuiet (s : State) : State :=
  if s.quietDue then
    { s with
      line.condition := .quiet
      line.phase := if s.line.phase = .settle then .hunt else s.line.phase }
  else s

/-- The line becomes STUCK in this period (R7). -/
def State.stuckDue (s : State) : Bool :=
  s.line.phase != .idle && s.line.condition == .active && decide (24 * s.bitTime ≤ s.line.stuckCount)

/-- LINE_STUCK (R7). -/
def lineStuck (order : FaultOrder) (s : State) : State :=
  if s.stuckDue then cutByLine order (releaseDriver { s with line.condition := .stuck }) else s

/-- ARBITRATION_LOST (R28): the frame in flight becomes a receive record; need and run stay. -/
def arbitrationLost (s : State) : State :=
  match s.line.finding, s.engine.frame.map Frame.role with
  | some .lostBit, some (.transmit _ _) => giveUpSending s
  | _, _ => s

/-- COLLISION (R35). -/
def collision (order : FaultOrder) (s : State) : State :=
  match s.line.finding, s.engine.frame.map Frame.role with
  | some .collidedBit, some (.transmit need _) => failOwn order need (giveUpSending s)
  | _, _ => s

/-- A driven bit read recessive (R36): as sender the frame ends; as acker the reception goes on. -/
def deadBit (order : FaultOrder) (s : State) : State :=
  match s.engine.frame.map Frame.role with
  | some (.transmit need _) => failOwn order need (endFrame (releaseOrder s))
  | some .receive => faultAtLimit order (countFailure (clearFinding (releaseOrder s)))
  | none => s

/-- DRIVER_FAILURE (R36), of a data bit, an ack slot or a start bit. -/
def driverFailure (order : FaultOrder) (s : State) : State :=
  match s.line.finding with
  | some .deadBit => deadBit order s
  | some (.falseStart true) => startBitRecessive order true s
  | _ => s

/-- RECEIVED_FRAME_END (R29). -/
def receivedFrameEnd (s : State) : State := if s.line.finding = some .receivedDone then endFrame s else s

/-- LENGTH_ABOVE_24 (R29). -/
def lengthAbove24 (s : State) : State := if s.line.finding = some .tooLong then endFrame s else s

/-! ### The acceptance instant (R29, R30, R32, R40) -/

/-- The receiver acks: the own slot's pattern, given now where the slot stands in ack cell 0 (R32). -/
def ackFrame (s : State) : State :=
  { s with
    engine.frame := s.engine.frame.map fun f => { f with acks := true }
    line.pattern := if s.own.val < 8 then some (slotPattern s.own) else none }

/-- The state after the acceptance instant but for the frame's own effect: check point set, finding taken. -/
def atAcceptance (s : State) : State := clearFinding (markCheckPoint s)

/-- The latch is discarded (R51). -/
def dropLatch (s : State) : State := { s with base.latch := none }

/-- A frame that has passed the test is handed on by the station state (R30): `take` in JOINING, SYNCED and HOLDOVER, `hear` in LISTEN. -/
def handOn (take hear : State → State × Bool) (s : State) : State :=
  if s.ctl.state.takesPart then
    let r := take s
    if r.2 then ackFrame r.1 else r.1
  else if s.ctl.state = .listen then (hear s).1
  else s

/-- The acceptance instant of a received frame of a kind: the duplicate test, the frame test, the hand-over, and the latch's end. -/
def acceptFrame (kind : FrameKind) (order : FaultOrder) (take hear : Station → List Byte → State → State × Bool)
    (s : State) : State :=
  match s.line.finding, s.engine.frame with
  | some .acceptance, some f =>
    if f.role = .receive ∧ f.kind? = some kind then
      if f.isDuplicate s.own then enterFault .duplicate .duplicate order (atAcceptance s)
      else
        match f.passes kind with
        | some sender => dropLatch (handOn (take sender f.payload) (hear sender f.payload) (atAcceptance s))
        | none => dropLatch (atAcceptance s)
    else s
  | _, _ => s

/-- The acceptance instant of a frame of no known kind: the duplicate test alone (R40, notes/assumptions/11.md). -/
def acceptUnknown (order : FaultOrder) (s : State) : State :=
  match s.line.finding, s.engine.frame with
  | some .acceptance, some f =>
    if f.role = .receive ∧ f.kind? = none then
      if f.isDuplicate s.own then enterFault .duplicate .duplicate order (atAcceptance s) else dropLatch (atAcceptance s)
    else s
  | _, _ => s

/-- No block takes the frame. -/
def takeNothing (_ : Station) (_ : List Byte) (s : State) : State × Bool := (s, false)

/-- A SYNC in JOINING, SYNCED or HOLDOVER (R58). -/
def takeSync (sender : Station) (payload : List Byte) (s : State) : State × Bool :=
  match decodeSync payload with
  | some c => (syncReceived sender c (s.offset c.refTime) s, true)
  | none => (s, false)

/-- A SYNC in LISTEN (R58, R62, R98). -/
def hearSync (sender : Station) (payload : List Byte) (s : State) : State × Bool :=
  match decodeSync payload with
  | some c => (syncHeard sender c (s.offset c.refTime) s, false)
  | none => (s, false)

/-- A LEAVE in JOINING, SYNCED or HOLDOVER (R63). -/
def takeLeave (sender : Station) (_ : List Byte) (s : State) : State × Bool := (leaveReceived sender s, true)

/-- A COMMIT in JOINING, SYNCED or HOLDOVER (R138). -/
def takeCommit (sender : Station) (payload : List Byte) (s : State) : State × Bool := memberCommit s.own sender payload s

/-- SYNC_ACCEPTED (R59). -/
def syncAccepted (order : FaultOrder) (s : State) : State := acceptFrame .sync order takeSync hearSync s

/-- LEAVE_ACCEPTED (R63). -/
def leaveAccepted (order : FaultOrder) (s : State) : State := acceptFrame .leave order takeLeave takeNothing s

/-- PROPOSE_ACCEPTED (R137). -/
def proposeAccepted (order : FaultOrder) (s : State) : State := acceptFrame .propose order memberPropose takeNothing s

/-- COMMIT_ACCEPTED (R138). -/
def commitAccepted (order : FaultOrder) (s : State) : State := acceptFrame .commit order takeCommit takeNothing s

/-- CANCEL_ACCEPTED (R139). -/
def cancelAccepted (order : FaultOrder) (s : State) : State := acceptFrame .cancel order memberCancel takeNothing s

/-- MARK_ACCEPTED (R155). -/
def markAccepted (order : FaultOrder) (s : State) : State := acceptFrame .mark order memberMark takeNothing s

/-! ### The rows -/

/-- The row LINE_QUIET (R6). -/
def execLineQuiet (s : State) : Host.Outcome State Fault Refusal := .next (lineQuiet s)

/-- The row LINE_STUCK (R7). -/
def execLineStuck (order : FaultOrder) (s : State) : Host.Outcome State Fault Refusal := .next (lineStuck order s)

/-- The row ACCESS (R25). -/
def execAccess (s : State) : Host.Outcome State Fault Refusal := .next (access s)

/-- The row FRAME_START (R26). -/
def execFrameStart (s : State) : Host.Outcome State Fault Refusal := .next (frameStart s)

/-- The row FALSE_START (R10). -/
def execFalseStart (order : FaultOrder) (s : State) : Host.Outcome State Fault Refusal := .next (falseStart order s)

/-- The row STOP_ERROR (R12). -/
def execStopError (order : FaultOrder) (s : State) : Host.Outcome State Fault Refusal := .next (stopError order s)

/-- The row GAP_EXPIRY (R13). -/
def execGapExpiry (order : FaultOrder) (s : State) : Host.Outcome State Fault Refusal := .next (gapExpiry order s)

/-- The row ARBITRATION_LOST (R28). -/
def execArbitrationLost (s : State) : Host.Outcome State Fault Refusal := .next (arbitrationLost s)

/-- The row COLLISION (R35). -/
def execCollision (order : FaultOrder) (s : State) : Host.Outcome State Fault Refusal := .next (collision order s)

/-- The row DRIVER_FAILURE (R36). -/
def execDriverFailure (order : FaultOrder) (s : State) : Host.Outcome State Fault Refusal := .next (driverFailure order s)

/-- The row CHECK_COMPLETE (R34). -/
def execCheckComplete (s : State) : Host.Outcome State Fault Refusal := .next (checkComplete s)

/-- The row FRAME_COMPLETED (R33). -/
def execFrameCompleted (s : State) : Host.Outcome State Fault Refusal := .next (frameCompleted s)

/-- The row SYNC_ACCEPTED (R59). -/
def execSyncAccepted (order : FaultOrder) (s : State) : Host.Outcome State Fault Refusal := .next (syncAccepted order s)

/-- The row LEAVE_ACCEPTED (R63). -/
def execLeaveAccepted (order : FaultOrder) (s : State) : Host.Outcome State Fault Refusal := .next (leaveAccepted order s)

/-- The row PROPOSE_ACCEPTED (R137). -/
def execProposeAccepted (order : FaultOrder) (s : State) : Host.Outcome State Fault Refusal := .next (proposeAccepted order s)

/-- The row COMMIT_ACCEPTED (R138). -/
def execCommitAccepted (order : FaultOrder) (s : State) : Host.Outcome State Fault Refusal := .next (commitAccepted order s)

/-- The row CANCEL_ACCEPTED (R139). -/
def execCancelAccepted (order : FaultOrder) (s : State) : Host.Outcome State Fault Refusal := .next (cancelAccepted order s)

/-- The row MARK_ACCEPTED (R155). -/
def execMarkAccepted (order : FaultOrder) (s : State) : Host.Outcome State Fault Refusal := .next (markAccepted order s)

/-- The row RECEIVED_FRAME_END (R29). -/
def execReceivedFrameEnd (s : State) : Host.Outcome State Fault Refusal := .next (receivedFrameEnd s)

/-- The row LENGTH_ABOVE_24 (R29). -/
def execLengthAbove24 (s : State) : Host.Outcome State Fault Refusal := .next (lengthAbove24 s)

end Sys2Proof.Machine
end

