-- ==== Sys2Proof/Machine/LineReading.lean ====
section
/-! DEFINITION. The Line Interface's work in one REFCLK period (chapter 1): driver, reading, counts, samples, readback, cells, gaps. -/

namespace Sys2Proof.Machine

/-! ### Driver and reading (R1, R2, R14) -/

/-- The sample instant of bit `i`, in periods after the edge (R11). -/
def sampleOffset (p i : Nat) : Nat := (2 * i + 1) * p / 2

/-- The own start of a later cell is due in this period (R14): in GAP, ten bit times after the edge, with a pattern that drives its start
bit. -/
def State.ownStartDue (s : State) : Bool :=
  s.driverEnabled && s.line.phase == .gap && s.period == s.line.edge + 10 * s.bitTime
    && (s.line.pattern.map fun p => p.getLsbD 0).getD false

/-- The pattern's setting of the bit of the current cell that this period belongs to (R14). -/
def State.cellDrive (s : State) : Bool :=
  s.driverEnabled && s.line.phase == .cell
    && (s.line.pattern.map fun p => p.getLsbD ((s.period - s.line.edge) / s.bitTime)).getD false

/-- The driver setting of this period (R2, R14). -/
def State.drives (s : State) : Bool := s.cellDrive || s.ownStartDue

/-- The wired-AND of the other stations and the own driver, which may fail (R1). -/
def wire (others : Level) (drives fails : Bool) : Level := if drives && !fails then .dominant else others

/-- The driver and the reading of the period (R1). -/
def readLevel (s : State) : State :=
  { s with
    line.driver := s.drives
    line.reading := wire s.pins.line s.drives s.pins.driverFails }

/-! ### Counts and condition (R6, R7) -/

/-- The quiet count, the stuck count, and ACTIVE at a dominant reading on a QUIET line (R6, R7). DESIGN CHOICE (notes/assumptions/41.md): a
period is read once, so an edge in the very period in which the count would have become full empties it, and the line does not become QUIET. -/
def Line.count (p : Nat) (l : Line) : Line :=
  match l.reading with
  | .recessive => { l with quietCount := min (12 * p) (l.quietCount + 1), stuckCount := 0 }
  | .dominant =>
    { l with
      quietCount := 0
      stuckCount := min (24 * p) (l.stuckCount + 1)
      condition := if l.condition = .quiet then .active else l.condition }

/-! ### Cells delivered (R12, R27, R29, R32) -/

/-- The byte of eight data bits, in the order received (R11). -/
def byteOfBits (bits : List Bool) : Byte := BitVec.ofNat 8 (bits.foldl (fun n x => 2 * n + x.toNat) 0)

/-- A cell joins the frame; cells 0 to N + 2 feed the check register (R19, R29). -/
def Frame.addCell (b : Byte) (edge : Nat) (f : Frame) : Frame :=
  { f with
    cells := f.cells ++ [(b, edge)]
    crc := if f.cells.length < 3 ∨ f.cells.length < f.length + 3 then crcByte f.crc b else f.crc }

/-- What the delivery of cell `k` of a sent frame of `n` payload cells is to the Frame Engine (R33, R34). -/
def sentFinding (n k : Nat) : Option Finding :=
  if k = n + 4 then some .ownCheckDone else if k = n + 6 then some .ownFrameDone else none

/-- What the delivery of cell `k` is to the Frame Engine of a receiver (R29); `f` holds the cell already. -/
def receivedFinding (f : Frame) (k : Nat) : Option Finding :=
  if k = 2 ∧ 24 < f.length then some .tooLong
  else if 3 ≤ k ∧ k = f.length + 4 then some .acceptance
  else if 3 ≤ k ∧ k = f.length + 6 then some .receivedDone
  else none

/-- The frame expects no cell behind this finding (R29, R33). -/
def Finding.last : Finding → Bool
  | .ownFrameDone => true
  | .receivedDone => true
  | .tooLong => true
  | .frameStart => false
  | .falseStart _ => false
  | .lostBit => false
  | .collidedBit => false
  | .deadBit => false
  | .stopError => false
  | .gapExpired => false
  | .ownCheckDone => false
  | .acceptance => false

/-- The pattern of the next cell: the sender's next cell, or the receiver's ack slot in ack cell 1 (R27, R31, R32). -/
def nextPattern (own : Station) (f : Frame) (k : Nat) : Option (BitVec 10) :=
  match f.role with
  | .transmit _ out => if k < out.length + 3 then some (sendPattern out (k + 1)) else none
  | .receive => if f.acks ∧ k = f.length + 5 ∧ 8 ≤ own.val then some (slotPattern own) else none

/-- The finding of a delivered cell. -/
def deliveryFinding (f : Frame) (k : Nat) : Option Finding :=
  match f.role with
  | .transmit _ out => sentFinding (out.length - 3) k
  | .receive => receivedFinding f k

/-- The Line Interface between cells: GAP, searching for the next edge (R12). -/
def Line.toGap (pattern : Option (BitVec 10)) (finding : Option Finding) (l : Line) : Line :=
  { l with
    phase := .gap
    bitPos := none
    gapCount := 0
    pattern
    finding }

/-- The stop bit read recessive: the cell is delivered, and the Frame Engine answers whether more cells are due (R12, R29). A cell 0 of
another kind than SYNC discards the latch (R51). Where the finding ends the frame, the event of its row makes the line SETTLE. -/
def deliverCell (s : State) : State :=
  let b := byteOfBits s.line.shift
  match s.engine.frame with
  | none => { s with line := s.line.settled }
  | some f =>
    let k := f.cells.length
    let g := f.addCell b s.line.edge
    let found := deliveryFinding g k
    let t := if k = 0 ∧ b ≠ FrameKind.sync.code then dropLatch s else s
    let t := { t with engine.frame := some g }
    if (found.map Finding.last).getD false then { t with line.bitPos := none, line.pattern := none, line.finding := found }
    else { t with line := t.line.toGap (nextPattern s.own g k) found }

/-! ### Bits sampled (R10, R11, R15, R28, R33, R35, R36) -/

/-- The station whose ack slot is data position `pos` of the frame's ack cell `k` (R31). -/
def slotStation (n k pos : Nat) : Nat := 8 * (k - (n + 5)) + pos

/-- The ack set gathers a dominant slot of another station (R33). -/
def gatherAck (own : Station) (n k pos : Nat) (m : StationSet) : StationSet :=
  if slotStation n k pos = own.val then m else m ||| 1#16 <<< slotStation n k pos

/-- The readback of data position `pos` in cell `k` of an own frame of `n` payload cells (R15): what a released bit read dominant, or a
driven bit read recessive, is (R28, R33, R35, R36). -/
def sentBitFinding (n k : Nat) (driven : Bool) (reading : Level) : Option Finding :=
  match driven, reading with
  | true, .recessive => some .deadBit
  | false, .dominant => if k ≤ 1 then some .lostBit else if k ≤ n + 4 then some .collidedBit else none
  | true, .dominant => none
  | false, .recessive => none

/-- The readback of a data bit (R15) by the Frame Engine's role. With the driver disabled there is no comparison. -/
def readBack (pos : Nat) (s : State) : State :=
  match s.engine.frame, s.line.pattern with
  | some f, some p =>
    if s.driverEnabled then
      let driven := p.getLsbD (pos + 1)
      let k := f.cells.length
      match f.role with
      | .transmit _ out =>
        let n := out.length - 3
        let t := { s with line.finding := sentBitFinding n k driven s.line.reading }
        if n + 5 ≤ k ∧ s.line.reading = .dominant then
          { t with engine.frame := some { f with ackSet := gatherAck s.own n k pos f.ackSet } }
        else t
      | .receive =>
        if driven ∧ s.line.reading = .recessive then { s with line.finding := some .deadBit } else s
    else s
  | _, _ => s

/-- The start bit is driven by the own pattern (R15). -/
def State.drivesStart (s : State) : Bool :=
  s.driverEnabled && (s.line.pattern.map fun p => p.getLsbD 0).getD false

/-- The sample instant of bit `i` of the cell (R10 to R12). -/
def sampleBit (i : Nat) (s : State) : State :=
  if i = 0 then
    match s.line.reading with
    | .dominant => { s with line.bitPos := some 1 }
    | .recessive => { s with line.bitPos := none, line.finding := some (.falseStart s.drivesStart) }
  else if i ≤ 8 then
    readBack (i - 1)
      { s with
        line.shift := s.line.shift ++ [s.line.reading == .recessive]
        line.bitPos := some (i + 1) }
  else
    match s.line.reading with
    | .recessive => deliverCell s
    | .dominant => { s with line.bitPos := none, line.finding := some .stopError }

/-! ### Phases (R8, R9, R13, R14) -/

/-- The own SYNC takes its reference-edge time in the edge period of cell 9 (R52). -/
def fillRefTime (s : State) : State :=
  match s.engine.frame with
  | some f =>
    match f.role with
    | .transmit need out =>
      if need.kind = .sync ∧ f.cells.length = 9 then
        let t : Time := (s.latchNow.map Latch.stamp).getD 0
        let out := out.take 9 ++ beBytes 8 t.toNat
        { s with
          engine.frame := some { f with role := .transmit need out }
          line.pattern := some (sendPattern out 9) }
      else s
    | .receive => s
  | none => s

/-- GAP (R13, R14): a falling edge or the own start begins the next cell; else the gap is counted from ten bit times after the edge. -/
def readGap (started : Bool) (s : State) : State :=
  if started || s.line.reading == .dominant then fillRefTime { s with line := s.line.beginCell s.period }
  else if s.line.edge + 10 * s.bitTime ≤ s.period then
    let n := min (3 * s.bitTime) (s.line.gapCount + 1)
    { s with
      line.gapCount := n
      line.finding := if n = 3 * s.bitTime then some .gapExpired else none }
  else s

/-- CELL (R10 to R12): the bit whose sample instant this period is. -/
def readCell (s : State) : State :=
  match s.line.bitPos with
  | some i => if s.period = s.line.edge + sampleOffset s.bitTime i then sampleBit i s else s
  | none => s

/-- HUNT (R9): a falling edge is a frame start. -/
def readHunt (before : Level) (s : State) : State :=
  if before = .recessive ∧ s.line.reading = .dominant then { s with line.finding := some .frameStart } else s

/-- The Line Interface in one period (R1 to R16): outside IDLE it reads, counts, and does the work of its phase. -/
def readLine (s : State) : State :=
  match s.line.phase with
  | .idle => s
  | phase =>
    let started := s.ownStartDue
    let before := s.line.reading
    let t := readLevel { s with line.finding := none }
    let u := { t with line := t.line.count s.bitTime }
    match phase with
    | .hunt => readHunt before u
    | .gap => readGap started u
    | .cell => readCell u
    | .settle => u
    | .idle => u

end Sys2Proof.Machine
end

