-- ==== Sys2Proof/Machine/HostPort.lean ====
section
/-! DEFINITION. The Host Port (chapter 11): the transaction, the judgement of a command, the fourteen commands and their snapshots. -/

namespace Sys2Proof.Machine

/-! ### The transaction (R168) -/

/-- The number of bits of the result as it is shifted out (R168). -/
def Result.bitLength (r : Result) : Nat := 8 * (r.data.length + 1)

/-- One edge on the host port's pins, RESET_N not low (R168). -/
def HostPort.edge (p : HostPort) : SpiEdge → HostPort
  | .csFall =>
    match p.transaction with
    | none => { p with transaction := some [], misoPos := 0 }
    | some _ => p
  | .sckRise mosi => { p with transaction := p.transaction.map fun bits => bits ++ [mosi] }
  | .sckFall =>
    match p.transaction with
    | none => p
    | some _ => { p with misoPos := min p.result.bitLength (p.misoPos + 1) }
  | .csRise => { p with transaction := none, ended := p.transaction }

/-- The port reads its edges of a period; while RESET_N is low it takes none (R167, R168). -/
def readPort (s : State) : State :=
  if s.resetLow then { s with port.ended := none }
  else { s with port := s.pins.spi.foldl HostPort.edge { s.port with ended := none } }

/-- MISO (R168): high impedance without a transaction, else the result's bit at the MISO position, and ones behind the result. DESIGN
CHOICE (notes/assumptions/45.md): where CS_N is low at the release of RESET_N, no transaction stands, and MISO stays released until CS_N falls
again. -/
def State.miso (s : State) : Option Bool :=
  s.port.transaction.map fun _ => (s.port.result.bytes.flatMap byteBits).getD s.port.misoPos true

/-! ### The judgement (R169) -/

/-- The transaction of the period has been judged. -/
def clearEnded (s : State) : State := { s with port.ended := none }

/-- The bytes of the transaction that the period's rise of CS_N ended, and the bits behind the last whole byte (R168, R169). -/
def State.command (s : State) : Option (List Byte × Nat) := s.port.ended.map packBytes

/-- The count behind the code is right (R169): the arguments, then filler bytes 0xFF, and no bit behind the last whole byte. -/
def countRight (args : Nat) (rest : List Byte) (stray : Nat) : Bool :=
  decide (args ≤ rest.length) && (rest.drop args).all (fun b => b == 0xFF) && stray == 0

/-- The judgement of a transaction for one command of the table of R171: its code, its number of argument bytes, and its owner. A
transaction with another code is another row's. -/
def takeCommand (code : Byte) (args : Nat) (owner : List Byte → State → State) (s : State) : State :=
  match s.command with
  | some (c :: rest, stray) =>
    if c = code then
      if countRight args rest stray then owner (rest.take args) (clearEnded s) else reply .badLength [] (clearEnded s)
    else s
  | _ => s

/-- BAD_COMMAND (R169): the first byte is no command code. -/
def badCommand (s : State) : State :=
  match s.command with
  | some (c :: _, _) => if commandCodes.contains c then s else reply .badCommand [] (clearEnded s)
  | _ => s

/-! ### Configuration and station commands (R173, R95, R105, R102) -/

/-- NOP (R170): the previous result stays. -/
def ownNop (_ : List Byte) (s : State) : State := s

/-- CONFIGURE (R173). -/
def ownConfigure (a : List Byte) (s : State) : State :=
  if s.ctl.state = .off then
    match decodeConfig a with
    | some c => if c.valid s.straps.speed then reply .ok [] { s with port.store := c } else reply .badConfig [] s
    | none => reply .badConfig [] s
  else reply .badState [] s

/-- START (R95). -/
def ownStart (a : List Byte) (s : State) : State :=
  if s.ctl.state ≠ .off then reply .badState [] s
  else if s.straps.speed = .invalid then reply .badStrap [] s
  else reply .ok [] (startStation (BitVec.ofNat 64 (field 0 8 a)) s)

/-- STOP (R105). -/
def ownStop (_ : List Byte) (s : State) : State :=
  if s.ctl.state = .off then reply .badState [] s else reply .ok [] (goOff .hostStop s)

/-- LEAVE (R102). -/
def ownLeave (_ : List Byte) (s : State) : State :=
  if s.ctl.state.takesPart then reply .ok [] (enterLeaving s) else reply .badState [] s

/-! ### Snapshots (R175 to R177) -/

/-- The 17 bytes of READ_TIME (R175, 12.3). -/
def State.timeBytes (s : State) : List Byte :=
  beBytes 8 s.now.toNat ++ byte1 s.ctl.state.code ++ signedBytes 8 s.rounds.lastCorrection

/-- READ_TIME (R175). -/
def ownReadTime (_ : List Byte) (s : State) : State := reply .ok s.timeBytes s

/-- The 31 bytes of READ_STATUS (R176, 12.3). -/
def State.statusBytes (s : State) : List Byte :=
  byte1 s.ctl.state.code ++ byte1 s.ctl.faultCause.code ++ byte1 s.own.val ++ byte1 (speedCode s.straps.speed)
    ++ setBytes s.members ++ beBytes 2 s.rounds.round ++ signedBytes 8 s.rounds.lastCorrection
    ++ byte1 s.rounds.peered.toNat ++ signedBytes 4 s.base.trim ++ signedBytes 4 s.base.slew ++ byte1 s.engine.run
    ++ byte1 s.sharedCount ++ byte1 s.localCount ++ byte1 s.reports.records.length ++ byte1 s.capture.records.length
    ++ byte1 s.capture.marks.length

/-- READ_STATUS (R176). -/
def ownReadStatus (_ : List Byte) (s : State) : State := reply .ok s.statusBytes s

/-- The entry that READ_PEER shows: an absent one for the own number (R70). -/
def State.shownPeer (s : State) (n : Station) : Peer := if n = s.own then Peer.absent else s.peer n

/-- READ_PEER (R70, R171, R177). -/
def ownReadPeer (a : List Byte) (s : State) : State :=
  if h : field 0 1 a < 16 then reply .ok ((s.shownPeer ⟨field 0 1 a, h⟩).bytes ⟨field 0 1 a, h⟩) s
  else reply .badArg [] s

/-- The deadline that a snapshot shows: a SHARED entry's (R129). -/
def State.shownDeadline (s : State) (e : Entry) : Option Time := if e.scope = .shared then some (s.deadline e) else none

/-- READ_ACTION (R129, R171, R177). -/
def ownReadAction (a : List Byte) (s : State) : State :=
  if field 0 1 a ≤ 31 then
    match s.table.entries[field 0 1 a]? with
    | some e => reply .ok (e.bytes s.table.entries.length (s.shownDeadline e)) s
    | none => reply .empty (byte1 s.table.entries.length) s
  else reply .badArg [] s

/-! ### Actions (R117, R130, R142 to R144) -/

/-- A draw of a sequence: the counter goes on behind the value given (R110). -/
def drawSeq (s : State) : State := { s with ctl.seq := s.nextSeq + 1 }

/-- The result of a taken PROPOSE or SCHEDULE: OK with the id (R117, R130). -/
def replyId (id : ActionId) (s : State) : State := reply .ok (idBytes id) s

/-- The id that the next draw makes (R110, R112). -/
def State.nextId (s : State) : ActionId := ⟨s.own, s.nextSeq⟩

/-- A taken SCHEDULE (R117). -/
def scheduleTaken (e : Entry) (s : State) : State := replyId e.id (putEntry e (drawSeq s))

/-- SCHEDULE (R117). -/
def ownSchedule (a : List Byte) (s : State) : State :=
  if s.ctl.state = .off ∨ s.ctl.state = .leaving then reply .badState [] s
  else
    match (decodeActionArgs a).entry? s.nextId .loc .owner .armed with
    | none => reply .badArg [] s
    | some e =>
      if e.due ≤ s.now then reply .tooSoon [] s
      else if 8 ≤ s.localCount then reply .localFull [] s
      else if 32 ≤ s.table.entries.length then reply .tableFull [] s
      else scheduleTaken e s

/-- A taken PROPOSE (R130): the sets and tries of a PENDING entry, and its PROPOSE need. -/
def proposeTaken (e : Entry) (s : State) : State :=
  let p := { e with required := some s.members, acked := some 0, tries := some 0 }
  replyId p.id (raiseFor .propose p (putEntry p (drawSeq s)))

/-- PROPOSE (R130). The sum of common time and twice the margin is modulo 2^64 (R41; notes/assumptions/28.md). -/
def ownPropose (a : List Byte) (s : State) : State :=
  if s.ctl.state ≠ .synced then reply .notSynced [] s
  else
    match (decodeActionArgs a).entry? s.nextId .shared .owner .pending with
    | none => reply .badArg [] s
    | some e =>
      if e.due < s.now + s.cfg.marginNs + s.cfg.marginNs then reply .tooSoon [] s
      else if 32 ≤ s.table.entries.length then reply .tableFull [] s
      else proposeTaken e s

/-- A CANCEL of a LOCAL entry (R142). -/
def cancelLocal (e : Entry) (s : State) : State := queueReport (.actionCancelled e.id) (removeEntry e.id s)

/-- A CANCEL of a PENDING or COMMITTING entry (R143). -/
def cancelUncommitted (e : Entry) (s : State) : State :=
  raiseFor .cancel e (putEntry { e with state := .cancelling, tries := some 0, marks := some ⟨.host, false⟩ } s)

/-- The ARMED entry of a taken CANCEL (R144). -/
def Entry.toCancel (members : StationSet) (e : Entry) : Entry :=
  { e with
    state := .cancelling
    required := some (e.armedSet.getD 0 &&& members)
    acked := some 0
    tries := some 0
    marks := some ⟨.host, false⟩
    finalAwaited := false }

/-- A CANCEL of an ARMED SHARED entry (R144), behind the end of a commit follow-up (R135). -/
def cancelArmed (e : Entry) (s : State) : State :=
  let t := if inFollowUp s.engine.needs e then endFollowUp e s else s
  raiseFor .cancel e (putEntry (e.toCancel s.members) t)

/-- A taken CANCEL, by the entry's scope and state (R142). An own entry is never HELD. -/
def cancelTaken (e : Entry) (s : State) : State :=
  if e.scope = .loc then cancelLocal e s
  else
    match e.state with
    | .pending => cancelUncommitted e s
    | .committing => cancelUncommitted e s
    | .armed => cancelArmed e s
    | .cancelling => s
    | .held => s

/-- CANCEL (R142). -/
def ownCancel (a : List Byte) (s : State) : State :=
  if 15 < field 0 1 a then reply .badArg [] s
  else if field 0 1 a ≠ s.own.val then reply .notOwner [] s
  else
    match s.entry? ⟨s.own, BitVec.ofNat 8 (field 1 1 a)⟩ with
    | none => reply .noSuchAction [] s
    | some e =>
      if e.scope = .shared ∧ s.ctl.state = .fault then reply .badState [] s
      else if e.scope = .shared ∧ e.state = .armed ∧ s.deadlineReached e then reply .tooLate [] s
      else reply .ok [] (cancelTaken e s)

/-! ### Queues (R163, R156) -/

/-- TAKE_REPORT (R163). -/
def ownTakeReport (_ : List Byte) (s : State) : State :=
  match s.reports.records with
  | r :: rest => reply .ok r.bytes { s with reports.records := rest }
  | [] => reply .empty [] s

/-- TAKE_CAPTURE (R156). -/
def ownTakeCapture (_ : List Byte) (s : State) : State :=
  match s.capture.records with
  | r :: rest => reply .ok r.bytes { s with capture.records := rest }
  | [] => reply .empty [] s

/-! ### The commands: code, argument bytes and owner (R171, 12.3) -/

/-- NOP as the Host Port takes it (R170). -/
def commandNop (s : State) : State := takeCommand 0x00 0 ownNop s

/-- CONFIGURE as the Host Port takes it (R173). -/
def commandConfigure (s : State) : State := takeCommand 0x01 17 ownConfigure s

/-- START as the Host Port takes it (R95). -/
def commandStart (s : State) : State := takeCommand 0x02 8 ownStart s

/-- STOP as the Host Port takes it (R105). -/
def commandStop (s : State) : State := takeCommand 0x03 0 ownStop s

/-- LEAVE as the Host Port takes it (R102). -/
def commandLeave (s : State) : State := takeCommand 0x04 0 ownLeave s

/-- READ_TIME as the Host Port takes it (R175). -/
def commandReadTime (s : State) : State := takeCommand 0x10 0 ownReadTime s

/-- READ_STATUS as the Host Port takes it (R176). -/
def commandReadStatus (s : State) : State := takeCommand 0x11 0 ownReadStatus s

/-- READ_PEER as the Host Port takes it (R70, R177). -/
def commandReadPeer (s : State) : State := takeCommand 0x12 1 ownReadPeer s

/-- READ_ACTION as the Host Port takes it (R129, R177). -/
def commandReadAction (s : State) : State := takeCommand 0x13 1 ownReadAction s

/-- PROPOSE as the Host Port takes it (R130). -/
def commandPropose (s : State) : State := takeCommand 0x20 19 ownPropose s

/-- SCHEDULE as the Host Port takes it (R117). -/
def commandSchedule (s : State) : State := takeCommand 0x21 19 ownSchedule s

/-- CANCEL as the Host Port takes it (R142). -/
def commandCancel (s : State) : State := takeCommand 0x22 2 ownCancel s

/-- TAKE_REPORT as the Host Port takes it (R163). -/
def commandTakeReport (s : State) : State := takeCommand 0x30 0 ownTakeReport s

/-- TAKE_CAPTURE as the Host Port takes it (R156). -/
def commandTakeCapture (s : State) : State := takeCommand 0x31 0 ownTakeCapture s

/-- The fifteen outcomes of a judgement that carries a code (R169, R171), each bound to its own code. -/
def hostCommands : List (State → State) :=
  [badCommand, commandNop, commandConfigure, commandStart, commandStop, commandLeave,
    commandReadTime, commandReadStatus, commandReadPeer, commandReadAction, commandPropose,
    commandSchedule, commandCancel, commandTakeReport, commandTakeCapture]

/-- The transaction of the period is judged and taken (R169), if one ended in it. -/
def takeTransaction (s : State) : State := hostCommands.foldl (fun s f => f s) s

/-! ### The rows -/

/-- The row BAD_COMMAND (R169). -/
def execBadCommand (s : State) : Host.Outcome State Fault Refusal := .next (badCommand s)

/-- The row NOP (R170). -/
def execNop (s : State) : Host.Outcome State Fault Refusal := .next (commandNop s)

/-- The row CONFIGURE (R173). -/
def execConfigure (s : State) : Host.Outcome State Fault Refusal := .next (commandConfigure s)

/-- The row START (R95). -/
def execStart (s : State) : Host.Outcome State Fault Refusal := .next (commandStart s)

/-- The row STOP (R105). -/
def execStop (s : State) : Host.Outcome State Fault Refusal := .next (commandStop s)

/-- The row LEAVE (R102). -/
def execLeave (s : State) : Host.Outcome State Fault Refusal := .next (commandLeave s)

/-- The row READ_TIME (R175). -/
def execReadTime (s : State) : Host.Outcome State Fault Refusal := .next (commandReadTime s)

/-- The row READ_STATUS (R176). -/
def execReadStatus (s : State) : Host.Outcome State Fault Refusal := .next (commandReadStatus s)

/-- The row READ_PEER (R70, R177). -/
def execReadPeer (s : State) : Host.Outcome State Fault Refusal := .next (commandReadPeer s)

/-- The row READ_ACTION (R129, R177). -/
def execReadAction (s : State) : Host.Outcome State Fault Refusal := .next (commandReadAction s)

/-- The row PROPOSE (R130). -/
def execPropose (s : State) : Host.Outcome State Fault Refusal := .next (commandPropose s)

/-- The row SCHEDULE (R117). -/
def execSchedule (s : State) : Host.Outcome State Fault Refusal := .next (commandSchedule s)

/-- The row CANCEL (R142). -/
def execCancel (s : State) : Host.Outcome State Fault Refusal := .next (commandCancel s)

/-- The row TAKE_REPORT (R163). -/
def execTakeReport (s : State) : Host.Outcome State Fault Refusal := .next (commandTakeReport s)

/-- The row TAKE_CAPTURE (R156). -/
def execTakeCapture (s : State) : Host.Outcome State Fault Refusal := .next (commandTakeCapture s)

end Sys2Proof.Machine
end

