-- ==== Sys2Proof/Machine/Tick.lean ====
section
/-! DEFINITION. The REFCLK boundary: the events of the ending period that are still outstanding, the advance, and the readings of the
period that begins (R41, R42). -/

namespace Sys2Proof.Machine

/-- What the Line Interface has handed to the Frame Engine in the period and nobody has taken yet is taken (notes/assumptions/6.md).
DESIGN CHOICE (notes/assumptions/14.md): where it leads to an entry to FAULT, STATE_CHANGED stands before the Action Protocol's
reports, of the two orders that R108 allows. -/
def settleFinding (s : State) : State :=
  match s.line.finding with
  | none => s
  | some .frameStart => frameStart s
  | some (.falseStart _) => falseStart .stateFirst s
  | some .lostBit => arbitrationLost s
  | some .collidedBit => collision .stateFirst s
  | some .deadBit => driverFailure .stateFirst s
  | some .stopError => stopError .stateFirst s
  | some .gapExpired => gapExpiry .stateFirst s
  | some .ownCheckDone => checkComplete s
  | some .ownFrameDone => frameCompleted s
  | some .receivedDone => receivedFrameEnd s
  | some .tooLong => lengthAbove24 s
  | some .acceptance =>
    match (s.engine.frame.map Frame.kind?).getD none with
    | some .sync => syncAccepted .stateFirst s
    | some .leave => leaveAccepted .stateFirst s
    | some .propose => proposeAccepted .stateFirst s
    | some .commit => commitAccepted .stateFirst s
    | some .cancel => cancelAccepted .stateFirst s
    | some .mark => markAccepted .stateFirst s
    | none => acceptUnknown .stateFirst s

/-- The line's conditions of the period (R6, R7). DESIGN CHOICE (notes/assumptions/14.md): an entry to FAULT by a stuck line has
STATE_CHANGED before the Action Protocol's reports, of the two orders that R108 allows. -/
def settleLine (s : State) : State := lineQuiet (lineStuck .stateFirst s)

/-- The rounds' events of the period (R97, R73, R79). DESIGN CHOICE (notes/assumptions/12.md and 13.md): of the orders of judging and
of a yield's parts, the close takes ascending stations, and notices, discard, move. -/
def settleRounds (s : State) : State := roundClose ⟨[], .noticesDiscardMove⟩ (roundStart (listenTimeout s))

/-- Every deadline of the period, then every follow-up deadline, in due list order (R115, R135). -/
def settleDeadlines (s : State) : State :=
  let t := (s.table.entries.map Entry.id).foldl (fun s id => deadlineEvent id s) s
  (t.table.entries.map Entry.id).foldl (fun s id => followUpDeadline id s) t

/-- `n` firings, one behind the other (R116). -/
def settleFirings : Nat → State → State
  | 0, s => s
  | n + 1, s => settleFirings n (actionDue s)

/-- Every pulse end, then every firing of the period; each entry fires at most once in a period (R116, R120). -/
def settleActions (s : State) : State :=
  let t := allChannels.foldl (fun s c => pulseEnd c s) s
  settleFirings t.table.entries.length t

/-- The captured edges of the period, at most one an input (R151). -/
def settleCaptures (s : State) : State := captureEdge (captureEdge (captureEdge (captureEdge s)))

/-- Every event of the ending period that the world has not given a place of its own, in one fixed order (notes/assumptions/6.md).
DESIGN CHOICE (notes/assumptions/17.md): the step notice has STEPPED before the late firings' reports. -/
def settle (s : State) : State :=
  access (takeTransaction (settleCaptures (settleActions (settleDeadlines (settleRounds (settleLine
    (settleFinding (stepNotice true s))))))))

/-- The boundary: common time advances (R42, R46), and the pins TRIG0-TRIG3 and IRQ_N follow what the ending period set
(R119, R164). -/
def boundary (s : State) : State :=
  { s with
    period := s.period + 1
    base := s.base.advance
    table.trigPins := s.table.levels
    table.firedNow := []
    table.firedOutputs := []
    table.expiring := []
    table.proposedNow := []
    reports.irq := (!s.reports.records.isEmpty || !s.capture.records.isEmpty) && !s.resetLow }

/-- The readings of the period that begins: the pins, the capture inputs, the host port's edges and the line (R1, R150, R168). -/
def readInputs (pins : Pins) (s : State) : State := readLine (readPort (readCaptures { s with pins }))

/-- COMMON_TIME_ADVANCE (R42). -/
def commonTimeAdvance (pins : Pins) (s : State) : State := readInputs pins (boundary (settle s))

/-- The row COMMON_TIME_ADVANCE (R42). -/
def execCommonTimeAdvance (pins : Pins) (s : State) : Host.Outcome State Fault Refusal := .next (commonTimeAdvance pins s)

end Sys2Proof.Machine
end

