-- ==== Sys2Proof/Machine/Dispatch.lean ====
section
/-! DEFINITION. One arm per command: each row's meaning. -/

namespace Sys2Proof.Machine

def exec (i : Instr) (s : State) : Host.Outcome State Fault Refusal :=
  match i with
  | .powerOnReset pins => Sys2Proof.Machine.execPowerOnReset pins s
  | .resetN pins => Sys2Proof.Machine.execResetN pins s
  | .badCommand => Sys2Proof.Machine.execBadCommand s
  | .nop => Sys2Proof.Machine.execNop s
  | .configure => Sys2Proof.Machine.execConfigure s
  | .start => Sys2Proof.Machine.execStart s
  | .stop => Sys2Proof.Machine.execStop s
  | .leave => Sys2Proof.Machine.execLeave s
  | .readTime => Sys2Proof.Machine.execReadTime s
  | .readStatus => Sys2Proof.Machine.execReadStatus s
  | .readPeer => Sys2Proof.Machine.execReadPeer s
  | .readAction => Sys2Proof.Machine.execReadAction s
  | .propose => Sys2Proof.Machine.execPropose s
  | .schedule => Sys2Proof.Machine.execSchedule s
  | .cancel => Sys2Proof.Machine.execCancel s
  | .takeReport => Sys2Proof.Machine.execTakeReport s
  | .takeCapture => Sys2Proof.Machine.execTakeCapture s
  | .lineQuiet => Sys2Proof.Machine.execLineQuiet s
  | .lineStuck order => Sys2Proof.Machine.execLineStuck order s
  | .access => Sys2Proof.Machine.execAccess s
  | .frameStart => Sys2Proof.Machine.execFrameStart s
  | .falseStart order => Sys2Proof.Machine.execFalseStart order s
  | .stopError order => Sys2Proof.Machine.execStopError order s
  | .gapExpiry order => Sys2Proof.Machine.execGapExpiry order s
  | .arbitrationLost => Sys2Proof.Machine.execArbitrationLost s
  | .collision order => Sys2Proof.Machine.execCollision order s
  | .driverFailure order => Sys2Proof.Machine.execDriverFailure order s
  | .checkComplete => Sys2Proof.Machine.execCheckComplete s
  | .frameCompleted => Sys2Proof.Machine.execFrameCompleted s
  | .syncAccepted order => Sys2Proof.Machine.execSyncAccepted order s
  | .leaveAccepted order => Sys2Proof.Machine.execLeaveAccepted order s
  | .proposeAccepted order => Sys2Proof.Machine.execProposeAccepted order s
  | .commitAccepted order => Sys2Proof.Machine.execCommitAccepted order s
  | .cancelAccepted order => Sys2Proof.Machine.execCancelAccepted order s
  | .markAccepted order => Sys2Proof.Machine.execMarkAccepted order s
  | .listenTimeout => Sys2Proof.Machine.execListenTimeout s
  | .roundStart => Sys2Proof.Machine.execRoundStart s
  | .roundClose order => Sys2Proof.Machine.execRoundClose order s
  | .stepNotice steppedFirst => Sys2Proof.Machine.execStepNotice steppedFirst s
  | .actionDue => Sys2Proof.Machine.execActionDue s
  | .pulseEnd output => Sys2Proof.Machine.execPulseEnd output s
  | .deadlineEvent id => Sys2Proof.Machine.execDeadlineEvent id s
  | .followUpDeadline id => Sys2Proof.Machine.execFollowUpDeadline id s
  | .captureEdge => Sys2Proof.Machine.execCaptureEdge s
  | .commonTimeAdvance pins => Sys2Proof.Machine.execCommonTimeAdvance pins s
  | .resetNAsserted => Sys2Proof.Machine.execResetNAsserted s
  | .receivedFrameEnd => Sys2Proof.Machine.execReceivedFrameEnd s
  | .lengthAbove24 => Sys2Proof.Machine.execLengthAbove24 s

end Sys2Proof.Machine
end

