-- ==== Sys2Proof/Safety.lean ====
section
/-! DEFINITION. What a state of the station always meets: the bounds and the ties between the blocks that the spec states over every
event, as decidable properties that every step is to keep. -/

namespace Sys2Proof.Machine

/-- The report queue holds at most 32 records, the capture queue 16, the MARK queue 4, and every loss count at most 255
(R162, R152, R153). -/
def State.queuesBounded (s : State) : Prop :=
  s.reports.records.length ≤ 32 ∧ s.capture.records.length ≤ 16 ∧ s.capture.marks.length ≤ 4
    ∧ (∀ r ∈ s.reports.records, r.loss ≤ 255) ∧ (∀ r ∈ s.capture.records, r.loss ≤ 255)

/-- The driver is dominant only in a state that enables it and not while RESET_N is low; while it is low IRQ_N is released and no
transaction is in progress (R2, R164, R167). -/
def State.pinsHeld (s : State) : Prop :=
  (s.line.driver = true → s.driverEnabled = true)
    ∧ (s.resetLow = true → s.line.driver = false ∧ s.reports.irq = false ∧ s.port.transaction = none)

/-- The trim, the slew term and the fraction lie in their ranges, and the configuration store holds a valid record
(R41, R43, R172, R173). -/
def State.clockInRange (s : State) : Prop :=
  (-200000 ≤ s.base.trim ∧ s.base.trim ≤ 200000) ∧ (-500000 ≤ s.base.slew ∧ s.base.slew ≤ 500000)
    ∧ s.base.fraction < 1000000000 ∧ s.port.store.valid s.straps.speed = true

/-- The due list is in its total order, names no id twice, holds at most 32 entries, and at most 8 LOCAL ones (R112 to R114). -/
def State.dueListKept (s : State) : Prop :=
  s.table.entries.Pairwise (fun a b => a.before b = true) ∧ (s.table.entries.map Entry.id).Nodup
    ∧ s.table.entries.length ≤ 32 ∧ s.localCount ≤ 8

/-- The scope, role and state of an entry go together, with its owner, its sets and tries, its cancel marks and its width; the acked set
lies within the required set, and a cancel of reason TRIES is uncommitted (7.1, 8.1, R112, R130, R132, R134). -/
def Entry.shaped (own : Station) (e : Entry) : Prop :=
  (e.scope = .loc → e.role = .owner ∧ e.state = .armed ∧ e.armedSet = none)
    ∧ (e.role = .owner → e.id.owner = own ∧ e.state ≠ .held)
    ∧ (e.role = .member → e.id.owner ≠ own ∧ (e.state = .held ∨ e.state = .armed))
    ∧ (e.scope = .shared → e.state = .armed → e.armedSet.isSome = true)
    ∧ (e.state = .pending ∨ e.state = .committing ∨ e.state = .held → e.armedSet = none)
    ∧ (e.required.isSome = true ↔ e.scope = .shared ∧ e.role = .owner)
    ∧ (e.acked.isSome = true ↔ e.scope = .shared ∧ e.role = .owner)
    ∧ (e.tries.isSome = true ↔ e.scope = .shared ∧ e.role = .owner)
    ∧ e.acked.getD 0 &&& ~~~(e.required.getD 0) = 0
    ∧ (e.marks.isSome = true ↔ e.state = .cancelling)
    ∧ (e.marks.map CancelMarks.reason = some .tries → e.armedSet = none)
    ∧ (e.width.isSome = true ↔ e.edge = .pulse)

/-- The occurrences fired and skipped of a counted entry in the table stay below its count (R116, R122). -/
def Entry.counted (e : Entry) : Prop :=
  e.fired ≤ 65535 ∧ e.skipped ≤ 65535 ∧ (e.count ≠ 0 → e.fired + e.skipped < e.count.toNat)

/-- Every entry of the table is shaped and counted. -/
def State.entriesSound (s : State) : Prop := ∀ e ∈ s.table.entries, e.shaped s.own ∧ e.counted

/-- One peer entry: absent with the values of R57, or present with its reported fields; the runs within their limits; a member is
neither suspect nor disagreeing and reports SYNCED or HOLDOVER (4.1, R57, R61, R64 to R67). -/
def Peer.sound (p : Peer) : Prop :=
  (p.present = false → p = Peer.absent)
    ∧ (p.present = true → p.reported.isSome = true ∧ p.lastRound.isSome = true ∧ p.count.isSome = true ∧ p.anchor.isSome = true)
    ∧ p.missRun ≤ 2 ∧ p.outlierRun ≤ 4 ∧ p.goodRun ≤ 3
    ∧ (p.member = true → p.present = true ∧ p.suspect = false ∧ p.disagreeing = false
        ∧ (p.reported = some .synced ∨ p.reported = some .holdover))
    ∧ (p.suspect = true → p.present = true ∧ p.outlierRun = 4)
    ∧ (p.suspect = false → p.goodRun = 0)

/-- The item of a station in the sample list (R76). -/
def listedSample (n : Station) (samples : List (Station × Int)) : Option Int :=
  (samples.find? fun x => x.1 == n).map Prod.snd

/-- The Peer Table: every entry sound, the own entry absent, and the sample list in station order, with an item for a station exactly while
its entry holds that sample; no member in LISTEN, and no rounds outside JOINING, SYNCED and HOLDOVER (R57, R62, R72, R76). -/
def State.peersSound (s : State) : Prop :=
  (∀ n : Station, (s.peer n).sound) ∧ s.peer s.own = Peer.absent
    ∧ s.rounds.samples.Pairwise (fun a b => a.1 < b.1)
    ∧ (∀ n : Station, (s.peer n).sample = listedSample n s.rounds.samples)
    ∧ (s.ctl.state = .listen → ∀ n : Station, (s.peer n).member = false)
    ∧ (s.rounds.active = true → s.ctl.state.takesPart = true)

/-- The pending-need list: in the order of raising, one need for a source, none in OFF, LISTEN and FAULT, and LEAVE alone in LEAVING
(R22). -/
def State.needsSound (s : State) : Prop :=
  s.engine.needs.Pairwise (fun a b => a.age < b.age ∧ a.source ≠ b.source)
    ∧ (∀ n ∈ s.engine.needs, n.age < s.engine.nextAge ∧ discardsNeed s.ctl.state n.kind = false)

/-- What each station state leaves the blocks holding (R5, R21, R42, R57, R72, R93, R95, R124, R157). -/
def State.blocksFollow (s : State) : Prop :=
  (s.ctl.state = .off ↔ s.line.phase = .idle)
    ∧ (s.ctl.state = .off → s.line.finding = none ∧ s.line.condition = .active)
    ∧ (s.ctl.state = .off ∨ s.ctl.state = .fault → s.engine.frame = none)
    ∧ (s.base.running = true ↔ s.ctl.state ≠ .off)
    ∧ (s.inForce.isSome = true ↔ s.ctl.state ≠ .off)
    ∧ (s.ctl.state = .off → s.capture.records = [] ∧ ∀ n : Station, s.peer n = Peer.absent)
    ∧ (s.ctl.state = .off ∨ s.ctl.state = .leaving → s.table.entries = [])
    ∧ (s.ctl.state.takesPart = false → s.rounds.active = false ∧ s.capture.marks = [])
    ∧ (s.rounds.windowOpen = true → s.rounds.active = true)
    ∧ (s.ctl.listenTimer.isSome = true ↔ s.ctl.state = .listen)
    ∧ (s.ctl.state = .fault → s.ctl.faultCause ≠ .noFault)

/-- The counts of the Line Interface and the Frame Engine lie in their ranges, and the cell bit position goes with the phase and the bits
taken (1.3, R6, R7, R11, R13, R39). -/
def State.countsBounded (s : State) : Prop :=
  s.line.quietCount ≤ 12 * s.bitTime ∧ s.line.stuckCount ≤ 24 * s.bitTime ∧ s.line.gapCount ≤ 3 * s.bitTime
    ∧ s.line.shift.length ≤ 8 ∧ s.engine.run ≤ 16
    ∧ (∀ i, s.line.bitPos = some i → s.line.phase = .cell ∧ i ≤ 9 ∧ s.line.shift.length = i - 1)

/-! ### Terms that the statements share -/

/-- The transaction of the period is a whole command (R169): its code, its argument bytes, and filler bytes 0xFF. -/
def State.holds (s : State) (code : Byte) (args filler : List Byte) : Prop :=
  s.command = some (code :: (args ++ filler), 0) ∧ ∀ b ∈ filler, b = 0xFF

/-- The transaction has been judged and its result stands in the buffer; nothing else has changed (R170). -/
def State.answered (s : State) (status : Status) (data : List Byte) : State :=
  { s with
    port.ended := none
    port.result := ⟨status, data⟩ }

/-- The table of R171: each command's row, its code and the number of its argument bytes. -/
def hostRows : List (Instr × Byte × Nat) :=
  [(.nop, 0x00, 0), (.configure, 0x01, 17), (.start, 0x02, 8), (.stop, 0x03, 0), (.leave, 0x04, 0), (.readTime, 0x10, 0),
    (.readStatus, 0x11, 0), (.readPeer, 0x12, 1), (.readAction, 0x13, 1), (.propose, 0x20, 19), (.schedule, 0x21, 19),
    (.cancel, 0x22, 2), (.takeReport, 0x30, 0), (.takeCapture, 0x31, 0)]

/-- The 17 argument bytes of CONFIGURE that carry a record (12.5). -/
def ConfigRecord.bytes (c : ConfigRecord) : List Byte :=
  byte1 c.roundCode ++ beBytes 2 c.stepThreshold ++ beBytes 2 c.syncTolerance ++ byte1 c.commitMargin ++ beBytes 2 c.lineDelay
    ++ signedBytes 4 c.initialTrim
    ++ c.capture.toList.map (fun x =>
      BitVec.ofNat 8 ((match x.edge with | .rise => 1 | .fall => 2 | .both => 3) + flagBit 4 x.share))
    ++ byte1 c.idle.toNat

/-- The 19 argument bytes of PROPOSE and SCHEDULE (12.3). -/
def ActionArgs.bytes (a : ActionArgs) : List Byte :=
  byte1 a.output ++ byte1 a.edge ++ beBytes 2 a.width.toNat ++ beBytes 8 a.due.toNat ++ beBytes 4 a.period.toNat
    ++ beBytes 2 a.count.toNat ++ byte1 a.mode

/-- The field checks of R117 on an action's fields, as one condition. -/
def ActionArgs.pass (a : ActionArgs) : Prop :=
  a.output ≤ 3 ∧ a.edge ≤ 3 ∧ (a.edge = 2 → a.width ≠ 0) ∧ (a.period = 0 ∨ 10000 ≤ a.period.toNat)
    ∧ (a.edge = 2 → a.period ≠ 0 → a.width.toNat * 100 < a.period.toNat) ∧ (a.period = 0 → a.count = 1) ∧ a.mode ≤ 1

/-- A need whose source the failed outcome of its frame does not move: not the controller's LEAVE, and no entry that awaits its last
outcome (R74, R132, R135, R145, R154). -/
def State.failsQuietly (s : State) (need : Need) : Prop :=
  need.source ≠ .controller ∧ ∀ id e, need.source = .entry id → s.entry? id = some e → e.finalAwaited = false

/-- The report queue behind one more report of this period (R161, R162). -/
def State.reported (s : State) (k : ReportKind) (state : StationState) : List Report :=
  joinQueue 32 Report.lose ⟨k, s.now, state, 0⟩ s.reports.records

/-- An own frame is in flight, for a need. -/
def State.sends (s : State) (need : Need) (out : List Byte) (f : Frame) : Prop :=
  s.engine.frame = some f ∧ f.role = .transmit need out

/-- A received frame of a kind reaches its acceptance instant in this period, passes the frame test, and comes from another station
(R29, R40). -/
def State.accepts (s : State) (kind : FrameKind) (f : Frame) (sender : Station) : Prop :=
  s.line.finding = some .acceptance ∧ s.engine.frame = some f ∧ f.role = .receive ∧ f.passes kind = some sender ∧ sender ≠ s.own

/-- The state behind an acceptance instant whose frame has changed nothing else: the check point set, the frame acked or not, the latch
discarded (R29, R32, R51). -/
def State.afterAcceptance (s : State) (f : Frame) (acked : Bool) : State :=
  { s with
    line.finding := none
    line.pattern := if acked then (if s.own.val < 8 then some (slotPattern s.own) else none) else s.line.pattern
    engine.frame := some { f with checkPoint := true, acks := acked || f.acks }
    base.latch := none }

/-- The events of the line that cut a frame in flight: a stop error, a gap expiry, a false start behind the first cell (R37), which
DRIVER_FAILURE takes too where the own pattern drove that start bit (R36). -/
def cuts : List (Finding × (FaultOrder → Instr)) :=
  [(.stopError, .stopError), (.gapExpired, .gapExpiry), (.falseStart false, .falseStart), (.falseStart true, .falseStart),
    (.falseStart true, .driverFailure)]

/-- The row `i` takes a transmission failure of the own frame `f` in flight, and `t` is what it leaves but for the count and the outcome: a
cut by the line (R37), a stuck line (R7), a collision (R35), a driver failure at a data bit, and one at the start bit of a first cell
(R10, R36). -/
def State.ownFailure (s : State) (o : FaultOrder) (f : Frame) (i : Instr) (t : State) : Prop :=
  (f.cells ≠ [] ∧ ∃ cut ∈ cuts, s.line.finding = some cut.1 ∧ i = cut.2 o ∧ t = endFrame s)
    ∨ (s.line.phase ≠ .idle ∧ s.line.condition = .active ∧ 24 * s.bitTime ≤ s.line.stuckCount ∧ i = .lineStuck o
      ∧ t = endFrame { s with line.condition := .stuck, line.driver := false, line.pattern := none })
    ∨ (s.line.finding = some .collidedBit ∧ i = .collision o
      ∧ t = { s with engine.frame := some { f with role := .receive }, line.pattern := none, line.finding := none })
    ∨ (s.line.finding = some .deadBit ∧ i = .driverFailure o ∧ t = endFrame s)
    ∨ (f.cells = [] ∧ s.line.finding = some (.falseStart true) ∧ i ∈ [Instr.falseStart o, .driverFailure o]
      ∧ t =
        { s with
          engine.frame := none
          base.latch := none
          line.condition := .quiet
          line.quietCount := 12 * s.bitTime
          line.phase := .hunt
          line.bitPos := none
          line.shift := []
          line.gapCount := 0
          line.pattern := none
          line.finding := none })

/-- A left notice of the station moves nothing in the table: no own entry in PENDING or behind the completed PROPOSE of the period, and no
HELD copy of the station's (R133, R141, R149). -/
def State.unconcerned (s : State) (n : Station) : Prop :=
  ∀ e ∈ s.table.entries, s.prunes e = false ∧ (e.state == .held && e.id.owner == n) = false

/-- The rows of the line and the Frame Engine with the findings that each takes (R9, R10, R12, R13, R28, R29, R33 to R36). -/
def findingRows (o : FaultOrder) : List (Instr × List Finding) :=
  [(.frameStart, [.frameStart]), (.falseStart o, [.falseStart true, .falseStart false]), (.stopError o, [.stopError]),
    (.gapExpiry o, [.gapExpired]), (.arbitrationLost, [.lostBit]), (.collision o, [.collidedBit]),
    (.driverFailure o, [.deadBit, .falseStart true]), (.checkComplete, [.ownCheckDone]), (.frameCompleted, [.ownFrameDone]),
    (.syncAccepted o, [.acceptance]), (.leaveAccepted o, [.acceptance]), (.proposeAccepted o, [.acceptance]),
    (.commitAccepted o, [.acceptance]), (.cancelAccepted o, [.acceptance]), (.markAccepted o, [.acceptance]),
    (.receivedFrameEnd, [.receivedDone]), (.lengthAbove24, [.tooLong])]

/-- The rows whose event takes a received frame. -/
def acceptanceRows : List (FrameKind × (FaultOrder → Instr)) :=
  [(.sync, .syncAccepted), (.leave, .leaveAccepted), (.propose, .proposeAccepted), (.commit, .commitAccepted),
    (.cancel, .cancelAccepted), (.mark, .markAccepted)]

end Sys2Proof.Machine
end

