-- ==== Sys2Proof/Certificates/Slice0/Obligations.lean ====
section
/-! DEFINITION. The statements about the station, for the provers: one proposition for each entry of OBLIGATIONS.json. -/

open Sys2Proof Sys2Proof.Machine

/-! ### The queue of commands and the resets -/

/-- A step takes the command at the front of the queue and runs it on the state with the queue's rest. On an empty queue the block idles
(the model's choice, notes/assumptions/3.md). -/
def Obligations.StepRunsTheFrontCommand : Prop :=
  (∀ (c : Instr) (rest : List Instr) (s : State), s.pending = c :: rest → step s = exec c { s with pending := rest })
    ∧ (∀ s : State, s.pending = [] → step s = .next s)

/-- No command is refused and none faults, in any state, and no command touches the queue of commands. That a row given where its condition
does not hold answers a next state as well is the model's choice (notes/assumptions/4.md). -/
def Obligations.EveryCommandCompletes : Prop :=
  ∀ (c : Instr) (s : State), ∃ t, exec c s = .next t ∧ t.pending = s.pending

/-- POWER_ON_RESET and RESET_N (R3, R93) give every block its power-on values, with the straps of the moment; the period number, the pins'
readings and the queue of commands are the outside's, and so is RESET_N, which may be low still at a power-on reset and is high behind its
release (R167). The power-on values of the blocks (R5, R21, R45, R57, R72, R93, R123, R124, R157, R165,
R167, R174). RESET_N_ASSERTED (R2, R164, R167) releases the driver and IRQ_N and abandons a transaction; the rest keeps its values until the
release (notes/assumptions/10.md). The model's own in it: the edge period, the reading and the MISO position after a reset
(notes/assumptions/2.md), the period number that goes on (notes/assumptions/21.md), and the pins TRIG and IRQ_N at their values at once
(notes/assumptions/26.md). -/
def Obligations.ResetsGivePowerOnValues : Prop :=
  (∀ (p : StrapPins) (s : State),
        let t : State :=
          { State.reset with
            straps := ⟨p.stn.toFin, if p.spd = 0 then .a else if p.spd = 1 then .b else if p.spd = 2 then .c else .invalid⟩
            period := s.period
            pins := s.pins
            pending := s.pending }
        exec (.powerOnReset p) s = .next { t with resetLow := s.resetLow } ∧ exec (.resetN p) s = .next t)
    ∧ (let s := State.reset
      (s.line.phase = .idle ∧ s.line.condition = .active ∧ s.line.quietCount = 0 ∧ s.line.stuckCount = 0 ∧ s.line.gapCount = 0
          ∧ s.line.bitPos = none ∧ s.line.shift = [] ∧ s.line.pattern = none ∧ s.line.driver = false)
        ∧ (s.engine.needs = [] ∧ s.engine.frame = none ∧ s.engine.run = 0)
        ∧ (s.base.time = 0 ∧ s.base.fraction = 0 ∧ s.base.trim = 0 ∧ s.base.slew = 0 ∧ s.base.running = false ∧ s.base.latch = none
          ∧ s.base.pendingStep = none)
        ∧ (∀ n : Station, s.peer n = ⟨false, none, false, false, none, none, none, none, 0, 0, 0, false⟩)
        ∧ (s.rounds = ⟨false, 0, false, [], false, 0, false, 0⟩)
        ∧ (s.ctl = ⟨.off, .noFault, none, 0, 0⟩)
        ∧ (s.table.entries = [] ∧ ∀ c : Channel, s.output c = ⟨false, none⟩)
        ∧ (s.capture.records = [] ∧ s.capture.marks = [] ∧ ∀ c : Channel, s.capture.sampled[c] = none)
        ∧ (s.reports.records = [] ∧ s.reports.irq = false)
        ∧ (s.port.transaction = none ∧ s.port.result = ⟨.ok, []⟩
          ∧ s.port.store = ⟨3, 100, 250, 5, 0, 0, Vector.replicate 4 ⟨.rise, false⟩, 0⟩))
    ∧ (∀ s : State,
        exec .resetNAsserted s =
          .next
            { s with
              resetLow := true
              line.driver := false
              reports.irq := false
              port.transaction := none
              port.ended := none })

/-! ### Host commands -/

/-- A whole transaction on the pins (R168): the bits on MOSI at the rises of SCK, the MISO position behind the falls of SCK, and the bits
handed on at the rise of CS_N. Within a transaction MISO shows the bit of the result at the position, and ones behind the result; without
one it is released, behind a release of RESET_N that finds CS_N low too (the model's choice, notes/assumptions/45.md). The bits spell whole
bytes, most significant bit first, and a number of bits behind the last of them (R168, R169, R179). -/
def Obligations.SpiTransactionIsRead : Prop :=
  ((∀ (p : HostPort) (bits : List Bool), p.transaction = none →
          List.foldl HostPort.edge p
              ([SpiEdge.csFall] ++ bits.flatMap (fun b => [SpiEdge.sckRise b, SpiEdge.sckFall]) ++ [SpiEdge.csRise]) =
            { p with
              ended := some bits
              misoPos := min (8 * (p.result.data.length + 1)) bits.length })
        ∧ ∀ s : State,
          s.miso =
            if s.port.transaction.isSome then
              some ((((BitVec.ofNat 8 s.port.result.status.code :: s.port.result.data).flatMap byteBits)[s.port.misoPos]?).getD true)
            else none)
    ∧ (∀ (bytes : List Byte) (tail : List Bool), tail.length < 8 →
        packBytes (bytes.flatMap byteBits ++ tail) = (bytes, tail.length))

/-- The judgement of a transaction (R169, R171). A first byte that is no command code is BAD_COMMAND. A command whose bytes are not its
arguments, filler 0xFF and no bit behind the last byte is BAD_LENGTH. A transaction without a code, or with another row's code, is not this
row's: nothing is taken and the buffer stays (notes/assumptions/4.md). -/
def Obligations.TransactionsAreJudged : Prop :=
  (∀ (s : State) (c : Byte) (rest : List Byte) (stray : Nat), s.command = some (c :: rest, stray) →
        c ∉ [0x00, 0x01, 0x02, 0x03, 0x04, 0x10, 0x11, 0x12, 0x13, 0x20, 0x21, 0x22, 0x30, 0x31] →
        exec .badCommand s = .next (s.answered .badCommand []))
    ∧ (∀ (s : State), ∀ row ∈ hostRows, ∀ (rest : List Byte) (stray : Nat), s.command = some (row.2.1 :: rest, stray) →
        (∀ args filler : List Byte, rest = args ++ filler → args.length = row.2.2 → (∀ b ∈ filler, b = 0xFF) → stray ≠ 0) →
        exec row.1 s = .next (s.answered .badLength []))
    ∧ (∀ (s : State), ∀ row ∈ hostRows, (∀ (rest : List Byte) (stray : Nat), s.command ≠ some (row.2.1 :: rest, stray)) →
        exec row.1 s = .next s)

/-- NOP (R170) has no effect anywhere, and the previous result stays. READ_STATUS (R176, 12.3), READ_PEER (R70, R177) and READ_ACTION
(R129, R177) give the snapshot of the period, and nothing else moves. -/
def Obligations.NopAndSnapshotsChangeNothing : Prop :=
  (∀ (s : State) (filler : List Byte), s.holds 0x00 [] filler → exec .nop s = .next { s with port.ended := none })
    ∧ ((∀ (s : State) (filler : List Byte), s.holds 0x11 [] filler →
          exec .readStatus s =
            .next
              (s.answered .ok
                (byte1 s.ctl.state.code ++ byte1 s.ctl.faultCause.code ++ byte1 s.own.val ++ byte1 (speedCode s.straps.speed)
                  ++ setBytes s.members ++ beBytes 2 s.rounds.round ++ signedBytes 8 s.rounds.lastCorrection
                  ++ byte1 (if s.rounds.peered then 1 else 0) ++ signedBytes 4 s.base.trim ++ signedBytes 4 s.base.slew
                  ++ byte1 s.engine.run ++ byte1 (s.table.entries.countP fun e => e.scope == .shared)
                  ++ byte1 (s.table.entries.countP fun e => e.scope == .loc) ++ byte1 s.reports.records.length
                  ++ byte1 s.capture.records.length ++ byte1 s.capture.marks.length)))
        ∧ (∀ (s : State) (n : Station) (filler : List Byte), s.holds 0x12 [BitVec.ofNat 8 n.val] filler →
          exec .readPeer s = .next (s.answered .ok ((if n = s.own then Peer.absent else s.peer n).bytes n)))
        ∧ (∀ (s : State) (b : Byte) (filler : List Byte), 15 < b.toNat → s.holds 0x12 [b] filler →
          exec .readPeer s = .next (s.answered .badArg []))
        ∧ (∀ (s : State) (b : Byte) (filler : List Byte), s.holds 0x13 [b] filler →
          exec .readAction s =
            .next
              (if 31 < b.toNat then s.answered .badArg []
              else
                match s.table.entries[b.toNat]? with
                | some e =>
                  s.answered .ok
                    (e.bytes s.table.entries.length (if e.scope = .shared then some (e.due - s.cfg.marginNs) else none))
                | none => s.answered .empty [BitVec.ofNat 8 s.table.entries.length])))

/-- READ_TIME (R175). -/
def Obligations.ReadTimeGivesTimeStateAndCorrection : Prop :=
  ∀ (s : State) (filler : List Byte), s.holds 0x10 [] filler →
    exec .readTime s =
      .next
        (s.answered .ok
          (beBytes 8 s.base.time.toNat ++ [BitVec.ofNat 8 s.ctl.state.code] ++ signedBytes 8 s.rounds.lastCorrection))

/-- CONFIGURE (R172, R173, 12.5): in OFF it stores a valid record and nothing else, and every other argument is BAD_CONFIG; outside OFF it
is BAD_STATE. -/
def Obligations.ConfigureStoresValidRecords : Prop :=
  (∀ (s : State) (c : ConfigRecord) (filler : List Byte), s.ctl.state = .off → c.valid s.straps.speed = true →
      s.holds 0x01 c.bytes filler → exec .configure s = .next { s.answered .ok [] with port.store := c })
    ∧ (∀ (s : State) (a filler : List Byte), s.ctl.state = .off → a.length = 17 →
      (∀ c : ConfigRecord, c.valid s.straps.speed = true → a ≠ c.bytes) →
      s.holds 0x01 a filler → exec .configure s = .next (s.answered .badConfig []))
    ∧ (∀ (s : State) (a filler : List Byte), s.ctl.state ≠ .off → a.length = 17 → s.holds 0x01 a filler →
      exec .configure s = .next (s.answered .badState []))

/-- START (R95, R96): taken in OFF with a valid speed class, it gives every block the values of the tables; the sequence counter and the
records queued before stay. The model's own in it: the edge period and the reading (notes/assumptions/2.md), and the age counter that
goes on (notes/assumptions/21.md). In another state it is BAD_STATE, and with an invalid speed class BAD_STRAP. -/
def Obligations.StartTakesTheStationToListen : Prop :=
  (∀ (s : State) (t : Time) (filler : List Byte), s.ctl.state = .off → s.straps.speed ≠ .invalid →
      s.holds 0x02 (beBytes 8 t.toNat) filler →
      exec .start s =
        .next
          { s.answered .ok [] with
            inForce := some s.port.store
            line := { State.reset.line with phase := .settle }
            engine := ⟨[], s.engine.nextAge, none, 0⟩
            base :=
              { time := t
                fraction := 0
                trim := s.port.store.initialTrim
                slew := 0
                running := true
                latch := none
                pendingStep := none
                notice := s.base.notice }
            peers := State.reset.peers
            rounds := State.reset.rounds
            ctl := ⟨.listen, .noFault, some t, 0, s.ctl.seq⟩
            table.entries := []
            table.outputs := #v[⟨s.port.store.idle[0], none⟩, ⟨s.port.store.idle[1], none⟩, ⟨s.port.store.idle[2], none⟩,
              ⟨s.port.store.idle[3], none⟩]
            capture.sampled := #v[some s.pins.cap[0], some s.pins.cap[1], some s.pins.cap[2], some s.pins.cap[3]]
            capture.edges := Vector.replicate 4 none
            capture.records := []
            capture.marks := []
            reports.records :=
              joinQueue 32 Report.lose ⟨.stateChanged .off .listen .hostStart, t, .listen, 0⟩ s.reports.records })
    ∧ (∀ (s : State) (a filler : List Byte), a.length = 8 → s.holds 0x02 a filler →
      (s.ctl.state ≠ .off → exec .start s = .next (s.answered .badState []))
        ∧ (s.ctl.state = .off → s.straps.speed = .invalid → exec .start s = .next (s.answered .badStrap [])))

/-- STOP (R105): taken outside OFF, refused in OFF. Entry to OFF (R104, R106): what STOP and the end of LEAVING leave in every block. -/
def Obligations.StopTakesTheStationOff : Prop :=
  (∀ (s : State) (filler : List Byte), s.holds 0x03 [] filler →
        exec .stop s =
          .next (if s.ctl.state = .off then s.answered .badState [] else (goOff .hostStop s).answered .ok []))
    ∧ (∀ (cause : MoveCause) (s : State),
        goOff cause s =
          { s with
            inForce := none
            line := { State.reset.line with edge := s.line.edge, reading := s.line.reading }
            engine := { s.engine with needs := [], frame := none }
            base := { s.base with running := false, slew := 0, latch := none, pendingStep := none }
            peers := State.reset.peers
            rounds := { s.rounds with active := false, windowOpen := false, samples := [], syncSent := false, joinRun := 0 }
            ctl := { s.ctl with state := .off, listenTimer := none, leaveFailures := 0 }
            table.entries := []
            table.outputs := #v[⟨s.cfg.idle[0], none⟩, ⟨s.cfg.idle[1], none⟩, ⟨s.cfg.idle[2], none⟩, ⟨s.cfg.idle[3], none⟩]
            capture := State.reset.capture
            reports.records := s.reported (.stateChanged s.ctl.state .off cause) .off })

/-- LEAVE (R102): taken in JOINING, SYNCED and HOLDOVER, it leaves the LEAVE need as the one need and a frame in flight as it is. -/
def Obligations.LeaveTakesTheStationToLeaving : Prop :=
  ∀ (s : State) (filler : List Byte), s.holds 0x04 [] filler →
    (s.ctl.state ∈ [StationState.joining, .synced, .holdover] →
        exec .leave s =
          .next
            { s.answered .ok [] with
              engine.needs := [⟨.leave, .controller, s.engine.nextAge⟩]
              engine.nextAge := s.engine.nextAge + 1
              base.slew := 0
              rounds.active := false
              rounds.windowOpen := false
              ctl.state := .leaving
              ctl.listenTimer := none
              ctl.leaveFailures := 0
              table.entries := []
              table.outputs := #v[⟨s.cfg.idle[0], none⟩, ⟨s.cfg.idle[1], none⟩, ⟨s.cfg.idle[2], none⟩, ⟨s.cfg.idle[3], none⟩]
              capture.marks := []
              reports.records := s.reported (.stateChanged s.ctl.state .leaving .hostLeave) .leaving })
      ∧ (s.ctl.state ∉ [StationState.joining, .synced, .holdover] → exec .leave s = .next (s.answered .badState []))

/-- The sequence that a draw gives (R110): the first from the counter on that no own entry holds, wherever at most 255 are held. The field
checks of R117 decide whether an action makes an entry, and the entry carries the fields with none fired. -/
def Obligations.NewEntriesHaveFreeIdsAndCheckedFields : Prop :=
  (∀ s : State, s.ownSeqs.length < 256 →
        s.nextSeq ∉ s.ownSeqs ∧ ∃ k : Nat, k ≤ s.ownSeqs.length ∧ s.nextSeq = s.ctl.seq + BitVec.ofNat 8 k
          ∧ ∀ j < k, s.ctl.seq + BitVec.ofNat 8 j ∈ s.ownSeqs)
    ∧ (∀ (a : ActionArgs) (id : ActionId) (scope : Scope) (role : ActionRole) (state : EntryState),
        ((a.entry? id scope role state).isSome = true ↔ a.pass)
          ∧ ∀ e, a.entry? id scope role state = some e →
            e.id = id ∧ e.scope = scope ∧ e.role = role ∧ e.state = state ∧ e.output.val = a.output ∧ e.edge.code = a.edge
              ∧ e.mode.code = a.mode ∧ e.width = (if a.edge = 2 then some a.width else none) ∧ e.due = a.due ∧ e.period = a.period
              ∧ e.count = a.count ∧ e.fired = 0 ∧ e.skipped = 0)

/-- SCHEDULE (R117): the checks in their order, and the LOCAL entry of a taken one with its id drawn (R110) and its place in the due list
(R114). -/
def Obligations.ScheduleMakesALocalEntry : Prop :=
  ∀ (s : State) (a : ActionArgs) (filler : List Byte), a.output < 256 → a.edge < 256 → a.mode < 256 → s.holds 0x21 a.bytes filler →
    let mayTake := s.ctl.state ≠ .off ∧ s.ctl.state ≠ .leaving
    (¬mayTake → exec .schedule s = .next (s.answered .badState []))
      ∧ (mayTake → ¬a.pass → exec .schedule s = .next (s.answered .badArg []))
      ∧ (mayTake → a.pass → a.due ≤ s.now → exec .schedule s = .next (s.answered .tooSoon []))
      ∧ (mayTake → a.pass → s.now < a.due → 8 ≤ s.localCount → exec .schedule s = .next (s.answered .localFull []))
      ∧ (mayTake → a.pass → s.now < a.due → s.localCount < 8 → 32 ≤ s.table.entries.length →
        exec .schedule s = .next (s.answered .tableFull []))
      ∧ (mayTake → a.pass → s.now < a.due → s.localCount < 8 → s.table.entries.length < 32 →
        ∃ e, a.entry? s.nextId .loc .owner .armed = some e
          ∧ exec .schedule s =
            .next
              { s.answered .ok [BitVec.ofNat 8 s.own.val, s.nextSeq] with
                ctl.seq := s.nextSeq + 1
                table.entries := insertEntry e s.table.entries })

/-- PROPOSE (R130): the checks in their order, and the PENDING entry of a taken one with its PROPOSE need (R22). The sum of common time
and twice the margin is modulo 2^64 (the model's reading, notes/assumptions/28.md). -/
def Obligations.ProposeMakesAPendingEntry : Prop :=
  ∀ (s : State) (a : ActionArgs) (filler : List Byte), a.output < 256 → a.edge < 256 → a.mode < 256 → s.holds 0x20 a.bytes filler →
    let early := a.due < s.now + s.cfg.marginNs + s.cfg.marginNs
    (s.ctl.state ≠ .synced → exec .propose s = .next (s.answered .notSynced []))
      ∧ (s.ctl.state = .synced → ¬a.pass → exec .propose s = .next (s.answered .badArg []))
      ∧ (s.ctl.state = .synced → a.pass → early → exec .propose s = .next (s.answered .tooSoon []))
      ∧ (s.ctl.state = .synced → a.pass → ¬early → 32 ≤ s.table.entries.length →
        exec .propose s = .next (s.answered .tableFull []))
      ∧ (s.ctl.state = .synced → a.pass → ¬early → s.table.entries.length < 32 →
        ∃ e, a.entry? s.nextId .shared .owner .pending = some e
          ∧ exec .propose s =
            .next
              { s.answered .ok [BitVec.ofNat 8 s.own.val, s.nextSeq] with
                ctl.seq := s.nextSeq + 1
                table.entries :=
                  insertEntry { e with required := some s.members, acked := some 0, tries := some 0 } s.table.entries
                engine.needs :=
                  s.engine.needs.filter (fun n => n.source != .entry s.nextId)
                    ++ [⟨.propose, .entry s.nextId, s.engine.nextAge⟩]
                engine.nextAge := s.engine.nextAge + 1 })

/-- CANCEL (R142): the checks in their order, each with its status, and nothing else changed by a refusal; a taken one (R142 to R144) acts by
the entry's scope and state. One of an entry in commit follow-up ends the follow-up first, with its reports (R135, R144). -/
def Obligations.CancelActsByTheEntry : Prop :=
  (∀ (s : State) (owner seq : Byte) (filler : List Byte), s.holds 0x22 [owner, seq] filler →
        (15 < owner.toNat → exec .cancel s = .next (s.answered .badArg []))
          ∧ (owner.toNat ≤ 15 → owner.toNat ≠ s.own.val → exec .cancel s = .next (s.answered .notOwner []))
          ∧ (owner.toNat = s.own.val → s.entry? ⟨s.own, seq⟩ = none → exec .cancel s = .next (s.answered .noSuchAction []))
          ∧ ∀ e, owner.toNat = s.own.val → s.entry? ⟨s.own, seq⟩ = some e → e.scope = .shared →
            (s.ctl.state = .fault → exec .cancel s = .next (s.answered .badState []))
              ∧ (s.ctl.state ≠ .fault → e.state = .armed → e.due - s.cfg.marginNs ≤ s.now →
                exec .cancel s = .next (s.answered .tooLate [])))
    ∧ (∀ (s : State) (seq : Byte) (filler : List Byte) (e : Entry), s.holds 0x22 [BitVec.ofNat 8 s.own.val, seq] filler →
        s.entry? ⟨s.own, seq⟩ = some e →
        let others := s.engine.needs.filter fun n => n.source != .entry e.id
        let cancel : List Need := [⟨.cancel, .entry e.id, s.engine.nextAge⟩]
        (e.scope = .loc →
            exec .cancel s =
              .next
                { s.answered .ok [] with
                  table.entries := dropEntry e.id s.table.entries
                  engine.needs := others
                  reports.records := s.reported (.actionCancelled e.id) s.ctl.state })
          ∧ (e.scope = .shared → s.ctl.state.takesPart = true → e.state = .pending ∨ e.state = .committing →
            exec .cancel s =
              .next
                { s.answered .ok [] with
                  table.entries :=
                    insertEntry { e with state := .cancelling, tries := some 0, marks := some ⟨.host, false⟩ }
                      (dropEntry e.id s.table.entries)
                  engine.needs := others ++ cancel
                  engine.nextAge := s.engine.nextAge + 1 })
          ∧ (e.scope = .shared → s.ctl.state.takesPart = true → e.state = .armed → s.now < e.due - s.cfg.marginNs →
            needHeld s.engine.needs .commit (.entry e.id) = false →
            exec .cancel s =
              .next
                { s.answered .ok [] with
                  table.entries :=
                    insertEntry
                      { e with
                        state := .cancelling
                        required := some (e.armedSet.getD 0 &&& s.members)
                        acked := some 0
                        tries := some 0
                        marks := some ⟨.host, false⟩
                        finalAwaited := false }
                      (dropEntry e.id s.table.entries)
                  engine.needs := others ++ cancel
                  engine.nextAge := s.engine.nextAge + 1 })
          ∧ (e.scope = .shared → e.role = .owner → s.ctl.state.takesPart = true → e.state = .armed → s.now < e.due - s.cfg.marginNs →
            needHeld s.engine.needs .commit (.entry e.id) = true →
            let armed := s.reported (.actionArmed e.id (e.armedSet.getD 0)) s.ctl.state
            let missing := e.armedSet.getD 0 &&& ~~~(e.acked.getD 0)
            exec .cancel s =
              .next
                { s.answered .ok [] with
                  table.entries :=
                    insertEntry
                      { e with
                        state := .cancelling
                        required := some (e.armedSet.getD 0 &&& s.members)
                        acked := some 0
                        tries := some 0
                        marks := some ⟨.host, false⟩
                        finalAwaited := false }
                      (dropEntry e.id s.table.entries)
                  engine.needs := others ++ cancel
                  engine.nextAge := s.engine.nextAge + 1
                  reports.records :=
                    if missing = 0 then armed
                    else joinQueue 32 Report.lose ⟨.commitIncomplete e.id missing, s.now, s.ctl.state, 0⟩ armed })
          ∧ (e.scope = .shared → s.ctl.state ≠ .fault → e.state = .cancelling → exec .cancel s = .next (s.answered .ok [])))

/-- TAKE_REPORT (R163) and TAKE_CAPTURE (R156): the oldest record leaves its queue for the result; an empty queue gives EMPTY. The layouts of
the results (12.1, 12.3, 12.4, R179), byte by byte: the 26 bytes of a report record with the code, the fields and the zero padding of each of
the eighteen kinds, the 13 of a capture record, the 18 of a peer and the 43 of an entry; and the lengths of the status, 31, and of the time,
17. -/
def Obligations.QueuesGiveTheOldestRecord : Prop :=
  let byte (n : Nat) : Byte := BitVec.ofNat 8 n
  let two (v : BitVec 16) : List Byte := [v.extractLsb' 8 8, v.extractLsb' 0 8]
  let four (v : BitVec 32) : List Byte := [24, 16, 8, 0].map fun i => v.extractLsb' i 8
  let eight (v : BitVec 64) : List Byte := [56, 48, 40, 32, 24, 16, 8, 0].map fun i => v.extractLsb' i 8
  let flag (value : Byte) (set : Bool) : Byte := if set then value else 0
  let stateCode (x : StationState) : Byte :=
    byte ([StationState.off, .listen, .joining, .synced, .holdover, .leaving, .fault].idxOf x)
  (∀ (s : State) (filler : List Byte),
        (s.holds 0x30 [] filler →
            (∀ r rest, s.reports.records = r :: rest →
                exec .takeReport s = .next { s.answered .ok r.bytes with reports.records := rest })
              ∧ (s.reports.records = [] → exec .takeReport s = .next (s.answered .empty [])))
          ∧ (s.holds 0x31 [] filler →
            (∀ r rest, s.capture.records = r :: rest →
                exec .takeCapture s = .next { s.answered .ok r.bytes with capture.records := rest })
              ∧ (s.capture.records = [] → exec .takeCapture s = .next (s.answered .empty []))))
    ∧ (∀ r : Report,
      let idOf (id : ActionId) : List Byte := [byte id.owner.val, id.seq]
      let row : Byte × List Byte :=
        match r.kind with
        | .stateChanged old new cause =>
          (0x01,
            [stateCode old, stateCode new,
              byte ([MoveCause.hostStart, .hostStop, .hostLeave, .adopted, .founded, .qualified, .merged, .holdoverEntered, .peerReturned,
                .left, .leaveFailed, .duplicate, .line].idxOf cause)])
        | .stepped amount cause => (0x02, eight (BitVec.ofInt 64 amount) ++ [byte ([StepCause.adopt, .merge].idxOf cause)])
        | .rateLimit => (0x03, [])
        | .peerJoined n => (0x04, [byte n.val])
        | .peerDropped n cause => (0x05, [byte n.val, byte ([DropCause.misses, .leave, .suspect].idxOf cause)])
        | .peerRestored n => (0x06, [byte n.val])
        | .actionArmed id armed => (0x07, idOf id ++ two armed)
        | .commitIncomplete id missing => (0x08, idOf id ++ two missing)
        | .actionFired id occurrence lateness flags skipped =>
          (0x09,
            idOf id ++ two (BitVec.ofNat 16 occurrence) ++ eight lateness
              ++ [flag 1 flags.late + flag 2 flags.holdover + flag 4 flags.unsynced] ++ two skipped)
        | .actionDone id => (0x0A, idOf id)
        | .actionCancelled id => (0x0B, idOf id)
        | .cancelIncomplete id missing => (0x0C, idOf id ++ two missing)
        | .cancelLate id cause => (0x0D, idOf id ++ [byte ([LateCause.deadline, .fault].idxOf cause)])
        | .proposalFailed id missing cause =>
          (0x0E, idOf id ++ two missing ++ [byte ([FailCause.tries, .late, .fault].idxOf cause)])
        | .heldExpired id => (0x0F, idOf id)
        | .heldDropped id => (0x10, idOf id)
        | .mergeDropped number => (0x11, [byte number])
        | .idClash id => (0x12, idOf id)
      r.bytes.length = 26
        ∧ r.bytes =
          [row.1] ++ eight r.time ++ [stateCode r.state, byte r.loss] ++ row.2 ++ List.replicate (15 - row.2.length) 0)
    ∧ (∀ r : CaptureRecord,
      r.bytes.length = 13
        ∧ r.bytes =
          [match r.source with | .loc => 0x10 | .remote n => byte n.val, byte r.input.val,
              match r.edge with | .rise => 1 | .fall => 2,
              flag 1 r.unsynced + flag 2 r.holdover + flag 4 r.notShared, byte r.loss]
            ++ eight r.time)
    ∧ (∀ (n : Station) (p : Peer),
      (p.bytes n).length = 18
        ∧ p.bytes n =
          [byte n.val,
              flag 1 p.present + flag 2 p.member + flag 4 p.suspect + flag 8 p.disagreeing + flag 16 p.sample.isSome,
              match p.reported with | none => 0 | some .joining => 2 | some .synced => 3 | some .holdover => 4]
            ++ two (p.lastRound.getD 0) ++ eight (BitVec.ofInt 64 (p.sample.getD 0))
            ++ [byte (p.count.getD 0), match p.anchor with | none => 0 | some a => byte a.val, byte p.missRun, byte p.outlierRun,
              byte p.goodRun])
    ∧ (∀ (number : Nat) (e : Entry) (d : Option Time),
      (e.bytes number d).length = 43
        ∧ e.bytes number d =
          [byte number, byte e.id.owner.val, e.id.seq,
              flag 128 (e.scope == .loc) + flag 64 (e.role == .member)
                + byte ([EntryState.pending, .committing, .held, .armed, .cancelling].idxOf e.state),
              byte e.output.val, byte ([ActionEdge.rise, .fall, .pulse, .toggle].idxOf e.edge),
              byte ([ReportMode.each, .atEnd].idxOf e.mode),
              flag 1 e.width.isSome + flag 2 e.required.isSome + flag 4 e.acked.isSome + flag 8 e.armedSet.isSome
                + flag 16 e.tries.isSome + flag 32 d.isSome]
            ++ two (e.width.getD 0) ++ eight e.due ++ four e.period ++ two e.count ++ two (BitVec.ofNat 16 e.fired)
            ++ two (BitVec.ofNat 16 e.skipped) ++ two (e.required.getD 0) ++ two (e.acked.getD 0) ++ two (e.armedSet.getD 0)
            ++ [byte (e.tries.getD 0)] ++ eight (d.getD 0))
    ∧ ∀ s : State, s.statusBytes.length = 31 ∧ s.timeBytes.length = 17

/-! ### The line and the frame engine -/

/-- An event row whose condition does not hold in the period has no effect (the model's choice, notes/assumptions/4.md): a row of the line and
the Frame Engine without a finding of its own; an acceptance row without a received frame of its kind; and each row of time that is not
due: the conditions of R6, R7, R25, R97, R73, R79, R47, R116, R120, R115, R135 and R151 in turn. That the deadline event of one entry whose due
has come holds back the firings of all is the model's choice too (notes/assumptions/44.md). -/
def Obligations.EventsWaitForTheirConditions : Prop :=
  (∀ (s : State) (o : FaultOrder), ∀ row ∈ findingRows o, s.line.finding ∉ row.2.map some → exec row.1 s = .next s)
    ∧ (∀ (s : State) (o : FaultOrder), ∀ row ∈ acceptanceRows,
      (∀ f, s.engine.frame = some f → f.role = .receive → f.kind? ≠ some row.1) → exec (row.2 o) s = .next s)
    ∧ ∀ (s : State) (o : FaultOrder) (c : CloseOrder) (steppedFirst : Bool) (ch : Channel) (id : ActionId),
      (s.line.phase = .idle ∨ s.line.condition = .quiet ∨ s.line.quietCount < 12 * s.bitTime → exec .lineQuiet s = .next s)
        ∧ (s.line.phase = .idle ∨ s.line.condition ≠ .active ∨ s.line.stuckCount < 24 * s.bitTime →
          exec (.lineStuck o) s = .next s)
        ∧ (s.ctl.state ∉ [StationState.joining, .synced, .holdover, .leaving] ∨ s.engine.frame ≠ none ∨ s.line.condition ≠ .quiet
            ∨ s.line.phase ≠ .hunt ∨ s.engine.needs = [] →
          exec .access s = .next s)
        ∧ (s.ctl.state ≠ .listen ∨ (∀ start, s.ctl.listenTimer = some start → (s.now - start).toNat < 3 * s.cfg.roundLength) →
          exec .listenTimeout s = .next s)
        ∧ (s.rounds.active = false ∨ s.noticeDue ≠ none ∨ s.now.toNat / s.cfg.roundLength = s.rounds.round →
          exec .roundStart s = .next s)
        ∧ (s.rounds.active = false ∨ s.rounds.windowOpen = false ∨ s.noticeDue ≠ none
            ∨ s.now.toNat < s.rounds.round * s.cfg.roundLength + s.cfg.roundLength / 2 →
          exec (.roundClose c) s = .next s)
        ∧ (s.noticeDue = none → exec (.stepNotice steppedFirst) s = .next s)
        ∧ (s.noticeDue ≠ none ∨ (∃ e ∈ s.table.entries, s.deadlineBeforeDue e = true)
            ∨ (∀ e ∈ s.table.entries, e.state ≠ .armed ∨ s.now < e.due ∨ e.id ∈ s.table.firedNow) →
          exec .actionDue s = .next s)
        ∧ (s.noticeDue ≠ none ∨ ch ∈ s.table.firedOutputs ∨ (∀ p, (s.output ch).pulseEnd = some p → s.now < p) →
          exec (.pulseEnd ch) s = .next s)
        ∧ ((∀ e, s.entry? id = some e →
            e.scope = .loc ∨ e.state = .armed ∨ e.finalAwaited = true
              ∨ (s.now < e.due - s.cfg.marginNs ∧ id ∉ s.table.expiring)) →
          exec (.deadlineEvent id) s = .next s)
        ∧ ((∀ e, s.entry? id = some e →
            e.scope = .loc ∨ e.role = .member ∨ e.state ≠ .armed ∨ needHeld s.engine.needs .commit (.entry id) = false
              ∨ e.finalAwaited = true ∨ s.now < e.due - s.cfg.marginNs) →
          exec (.followUpDeadline id) s = .next s)
        ∧ ((∀ n : Channel, s.capture.edges[n] = none) → exec .captureEdge s = .next s)

/-- LINE_QUIET (R6, R8): twelve bit times of recessive readings make the line QUIET, and SETTLE becomes HUNT in the same period. FALSE_START on
a first cell (R10): the frame start is discarded, the latch with it, and the line is QUIET in HUNT at once. Where the own pattern drove that
start bit, it is a driver failure too (R36), whichever of the two rows takes it: one transmission failure (the model's reading,
notes/assumptions/9.md). -/
def Obligations.LineReturnsToQuiet : Prop :=
  (∀ s : State, s.line.phase ≠ .idle → s.line.condition ≠ .quiet → 12 * s.bitTime ≤ s.line.quietCount →
        exec .lineQuiet s =
          .next
            { s with
              line.condition := .quiet
              line.phase := if s.line.phase = .settle then .hunt else s.line.phase })
    ∧ (∀ (s : State) (o : FaultOrder) (f : Frame) (driven : Bool), s.line.finding = some (.falseStart driven) →
        s.engine.frame = some f → f.cells = [] → (driven = true → f.role = .receive) →
        exec (.falseStart o) s =
          .next
            { s with
              engine.frame := none
              base.latch := none
              line.condition := .quiet
              line.quietCount := 12 * s.bitTime
              line.phase := .hunt
              line.bitPos := none
              line.shift := []
              line.gapCount := 0
              line.pattern := none
              line.finding := none })
    ∧ (∀ (s : State) (o : FaultOrder) (need : Need) (out : List Byte) (f : Frame), s.sends need out f → f.cells = [] →
        s.failsQuietly need → s.engine.run < 15 → s.line.finding = some (.falseStart true) →
        ∀ i ∈ [Instr.falseStart o, .driverFailure o],
          exec i s =
            .next
              { s with
                engine.frame := none
                engine.run := s.engine.run + 1
                base.latch := none
                line.condition := .quiet
                line.quietCount := 12 * s.bitTime
                line.phase := .hunt
                line.bitPos := none
                line.shift := []
                line.gapCount := 0
                line.pattern := none
                line.finding := none })

/-- The end of a frame in flight (R13, R51): no frame, no latch, the cell abandoned, and the line in SETTLE, or in HUNT where it is QUIET. That
is all that comes of RECEIVED_FRAME_END and LENGTH_ABOVE_24 (R29), and of STOP_ERROR (R12), GAP_EXPIRY (R13) and FALSE_START (R10) on a later
cell of a received frame (R37). -/
def Obligations.ReceivedFramesEndWithoutOutcome : Prop :=
  (∀ s : State,
        endFrame s =
          { s with
            engine.frame := none
            base.latch := none
            line.phase := if s.line.condition = .quiet then .hunt else .settle
            line.bitPos := none
            line.shift := []
            line.gapCount := 0
            line.pattern := none
            line.finding := none })
    ∧ (∀ s : State,
        (s.line.finding = some .receivedDone → exec .receivedFrameEnd s = .next (endFrame s))
          ∧ (s.line.finding = some .tooLong → exec .lengthAbove24 s = .next (endFrame s)))
    ∧ (∀ (s : State) (o : FaultOrder) (f : Frame), s.engine.frame = some f → f.role = .receive → f.cells ≠ [] →
        ∀ cut ∈ cuts, s.line.finding = some cut.1 → exec (cut.2 o) s = .next (endFrame s))

/-- STOP_ERROR (R12), GAP_EXPIRY (R13) and FALSE_START (R10) on a later cell of an own frame count one transmission failure (R37, R39), and the
need stays in the list with its age (R34). LINE_STUCK (R7) makes the line STUCK, releases the driver and ends a frame in flight, which for an own
frame is one transmission failure. -/
def Obligations.CutOfAnOwnFrameIsAFailure : Prop :=
  (∀ (s : State) (o : FaultOrder) (need : Need) (out : List Byte) (f : Frame), s.sends need out f → f.cells ≠ [] →
        s.failsQuietly need → s.engine.run < 15 →
        ∀ cut ∈ cuts, s.line.finding = some cut.1 → exec (cut.2 o) s = .next { endFrame s with engine.run := s.engine.run + 1 })
    ∧ (∀ (s : State) (o : FaultOrder), s.line.phase ≠ .idle → s.line.condition = .active → 24 * s.bitTime ≤ s.line.stuckCount →
        let t : State := { s with line.condition := .stuck, line.driver := false, line.pattern := none }
        ((∀ f, s.engine.frame = some f → f.role = .receive) → exec (.lineStuck o) s = .next (endFrame t))
          ∧ ∀ need out f, s.sends need out f → s.failsQuietly need → s.engine.run < 15 →
            exec (.lineStuck o) s = .next { endFrame t with engine.run := s.engine.run + 1 })

/-- The failed outcome of the LEAVE frame (R103), by whatever fails it: below four the station stays in LEAVING, but for the sixteenth failure
of the run, which takes it to FAULT (LINE); at the fourth it goes to OFF, whatever the run. The sixteenth failure of the run takes a station
that drives to FAULT with cause LINE (R39, R107): of its own frame by a cut (R37), a stuck line (R7), a collision (R35) or a driver failure
(R36), and of its own ack slot. -/
def Obligations.FailureLimitsEndTheStation : Prop :=
  (∀ (s : State) (o : FaultOrder) (i : Instr) (need : Need) (out : List Byte) (f : Frame) (t : State), s.sends need out f →
        s.ownFailure o f i t → need.source = .controller → s.holdsNeed need = true → s.ctl.state = .leaving →
        let u : State := { t with engine.run := min 16 (s.engine.run + 1) }
        (s.ctl.leaveFailures < 3 → s.engine.run < 15 →
            exec i s = .next { u with ctl.leaveFailures := s.ctl.leaveFailures + 1 })
          ∧ (s.ctl.leaveFailures < 3 → 15 ≤ s.engine.run →
            exec i s = .next (enterFault .line .line o { u with ctl.leaveFailures := s.ctl.leaveFailures + 1 }))
          ∧ (3 ≤ s.ctl.leaveFailures → exec i s = .next (goOff .leaveFailed u)))
    ∧ (∀ (s : State) (o : FaultOrder) (i : Instr) (need : Need) (out : List Byte) (f : Frame) (t : State), s.sends need out f →
        s.ownFailure o f i t → s.failsQuietly need → 15 ≤ s.engine.run →
        s.ctl.state ∈ [StationState.joining, .synced, .holdover, .leaving] →
        exec i s = .next (enterFault .line .line o { t with engine.run := 16 }))
    ∧ ∀ (s : State) (o : FaultOrder) (f : Frame), s.engine.frame = some f → f.role = .receive → 15 ≤ s.engine.run →
      s.ctl.state ∈ [StationState.joining, .synced, .holdover, .leaving] → s.line.finding = some .deadBit →
      exec (.driverFailure o) s =
        .next (enterFault .line .line o { s with engine.run := 16, line.pattern := none, line.finding := none })

/-- Entry to FAULT (R107, R108, R148): what it leaves in every block, and its reports, before or behind STATE_CHANGED. The Action Protocol's
reports by entry: HELD_DROPPED of a HELD one; PROPOSAL_FAILED (FAULT) of a PENDING or COMMITTING one; ACTION_ARMED and COMMIT_INCOMPLETE of one
in follow-up; CANCEL_LATE (FAULT) of a committed cancel that returns; of every other cancel ACTION_CANCELLED, CANCEL_INCOMPLETE or none. That
they stand in the order of R148's list is the model's choice (notes/assumptions/14.md). -/
def Obligations.EntryToFaultPurgesTheProtocol : Prop :=
  ∀ (cause : FaultCause) (move : MoveCause) (o : FaultOrder) (s : State),
    let reached (e : Entry) : Bool := e.marks == some ⟨.host, true⟩ || e.marks == some ⟨.tries, true⟩
    let returns (e : Entry) : Bool := e.state == .cancelling && e.armedSet.isSome && !reached e
    let missing (e : Entry) : StationSet := e.required.getD 0 &&& ~~~(e.acked.getD 0)
    let unarmed (e : Entry) : StationSet := e.armedSet.getD 0 &&& ~~~(e.acked.getD 0)
    let followed (e : Entry) : Bool :=
      e.scope == .shared && e.role == .owner && e.state == .armed
        && s.engine.needs.any fun k => k.kind == .commit && k.source == .entry e.id
    let reports : List ReportKind :=
      ((s.table.entries.filter fun e => e.state == .held).map fun e => .heldDropped e.id)
        ++ ((s.table.entries.filter fun e => e.state == .pending || e.state == .committing).map fun e =>
          .proposalFailed e.id (missing e) .fault)
        ++ ((s.table.entries.filter followed).flatMap fun e =>
          .actionArmed e.id (e.armedSet.getD 0) :: if unarmed e = 0 then [] else [.commitIncomplete e.id (unarmed e)])
        ++ ((s.table.entries.filter returns).map fun e => .cancelLate e.id .fault)
        ++ ((s.table.entries.filter fun e => e.state == .cancelling && !returns e).flatMap fun e =>
          if e.armedSet = none ∧ e.marks = some ⟨.host, false⟩ then [.actionCancelled e.id]
          else if e.armedSet ≠ none ∧ missing e ≠ 0 then [.cancelIncomplete e.id (missing e)]
          else [])
    ∃ t, enterFault cause move o s = t
      ∧ t.ctl = { s.ctl with state := .fault, faultCause := cause, listenTimer := none }
      ∧ t.engine = { s.engine with needs := [], frame := none }
      ∧ t.base = { s.base with slew := 0, latch := none }
      ∧ t.rounds = { s.rounds with active := false, windowOpen := false }
      ∧ t.line =
        (if s.line.phase = .cell ∨ s.line.phase = .gap then { (endFrame s).line with driver := false }
          else { s.line with driver := false, pattern := none })
      ∧ t.peers = s.peers
      ∧ t.table =
        { s.table with
          entries :=
            (s.table.entries.filter fun e => e.state == .armed || returns e).map fun e =>
              { e with state := .armed, marks := if e.state = .armed then e.marks else none, finalAwaited := false } }
      ∧ t.capture = { s.capture with marks := [] }
      ∧ t.reports.records =
        (match o with
          | .stateFirst =>
            reports.foldl (fun q k => joinQueue 32 Report.lose ⟨k, s.now, .fault, 0⟩ q)
              (s.reported (.stateChanged s.ctl.state .fault move) .fault)
          | .protocolFirst =>
            joinQueue 32 Report.lose ⟨.stateChanged s.ctl.state .fault move, s.now, .fault, 0⟩
              (reports.foldl (fun q k => joinQueue 32 Report.lose ⟨k, s.now, s.ctl.state, 0⟩ q) s.reports.records))
      ∧ t.port = s.port ∧ t.straps = s.straps ∧ t.inForce = s.inForce ∧ t.pending = s.pending

/-- Selection (R24): among the needs, one of the first class that holds any, and within it of the lowest age. The classes in their order:
SYNC, then COMMIT and CANCEL together, PROPOSE, MARK and LEAVE. -/
def Obligations.SelectionIsByClassThenAge : Prop :=
  let classes : List (List FrameKind) := [[.sync], [.commit, .cancel], [.propose], [.mark], [.leave]]
  ∀ needs : List Need,
    (selectNeed needs = none ↔ needs = [])
      ∧ ∀ n, selectNeed needs = some n →
        n ∈ needs ∧ ∃ before own after, classes = before ++ own :: after ∧ n.kind ∈ own
          ∧ ∀ m ∈ needs, (∀ kinds ∈ before, m.kind ∉ kinds) ∧ (m.kind ∈ own → n.age ≤ m.age)

/-- ACCESS (R25, R27, R9, R51): the station opens a frame for the selected need with its cells as `FramesReadBackAtTheReceiver` says, begins
cell 0 in this period, and drives its start bit; the edge sets the latch. That the period is then read again with the own driver (R1, R6,
R7: a dominant reading, the line ACTIVE, the counts of one dominant period) is the model's choice (notes/assumptions/7.md), and so is the
frame that begins all the same behind a driver that fails (notes/assumptions/8.md) or that RESET_N holds released (notes/assumptions/10.md).
FRAME_START (R9, R26, R51): the edge begins cell 0 and sets the latch; a station that drives and holds a need joins it as a sender, any
other outside OFF and FAULT receives. -/
def Obligations.FramesBeginByAccessOrByJoining : Prop :=
  (∀ (s : State) (need : Need), s.ctl.state ∈ [StationState.joining, .synced, .holdover, .leaving] → s.resetLow = false →
        s.engine.frame = none → s.line.condition = .quiet → s.line.phase = .hunt → selectNeed s.engine.needs = some need →
        s.pins.driverFails = false →
        exec .access s =
          .next
            { s with
              engine.frame := some ⟨.transmit need (frameCells need s), [], 0xFFFF, false, 0, false⟩
              base.latch := some ⟨s.base.time - 80, s.period⟩
              line :=
                { s.line with
                  condition := .active
                  quietCount := 0
                  stuckCount := min (24 * s.bitTime) (s.line.stuckCount + 1)
                  phase := .cell
                  edge := s.period
                  bitPos := some 0
                  shift := []
                  gapCount := 0
                  pattern := some (bytePattern need.kind.code)
                  driver := true
                  reading := .dominant
                  finding := none } })
    ∧ (∀ (s : State) (need : Need), s.ctl.state ∈ [StationState.joining, .synced, .holdover, .leaving] →
        s.engine.frame = none → s.line.condition = .quiet → s.line.phase = .hunt → selectNeed s.engine.needs = some need →
        s.pins.driverFails = true ∨ s.resetLow = true →
        exec .access s =
          .next
            { s with
              engine.frame := some ⟨.transmit need (frameCells need s), [], 0xFFFF, false, 0, false⟩
              base.latch := some ⟨s.base.time - 80, s.period⟩
              line :=
                { s.line with
                  phase := .cell
                  edge := s.period
                  bitPos := some 0
                  shift := []
                  gapCount := 0
                  pattern := some (bytePattern need.kind.code)
                  driver := if s.resetLow then s.line.driver else true
                  finding := none } })
    ∧ (∀ s : State, s.line.finding = some .frameStart → s.ctl.state ∉ [StationState.off, .fault] →
        let t : State :=
          { s with
            base.latch := some ⟨s.base.time - 80, s.period⟩
            line.phase := .cell
            line.edge := s.period
            line.bitPos := some 0
            line.shift := []
            line.gapCount := 0
            line.finding := none }
        (s.ctl.state = .listen ∨ s.engine.needs = [] →
            exec .frameStart s = .next { t with engine.frame := some ⟨.receive, [], 0xFFFF, false, 0, false⟩ })
          ∧ ∀ need, s.ctl.state ≠ .listen → selectNeed s.engine.needs = some need →
            exec .frameStart s =
              .next
                { t with
                  engine.frame := some ⟨.transmit need (frameCells need s), [], 0xFFFF, false, 0, false⟩
                  line.pattern := some (bytePattern need.kind.code) })

/-- ARBITRATION_LOST (R28): the frame goes on as a receive record with what was read, the driver gives up the pattern, and needs and run stay.
COLLISION (R35): the same, with one transmission failure. DRIVER_FAILURE (R36): as sender the frame ends, as acker the reception goes on; one
transmission failure in both. -/
def Obligations.ReadbackMismatchEndsTheSending : Prop :=
  (∀ (s : State) (need : Need) (out : List Byte) (f : Frame), s.sends need out f → s.line.finding = some .lostBit →
        exec .arbitrationLost s =
          .next { s with engine.frame := some { f with role := .receive }, line.pattern := none, line.finding := none })
    ∧ (∀ (s : State) (o : FaultOrder) (need : Need) (out : List Byte) (f : Frame), s.sends need out f → s.failsQuietly need →
        s.engine.run < 15 → s.line.finding = some .collidedBit →
        exec (.collision o) s =
          .next
            { s with
              engine.frame := some { f with role := .receive }
              engine.run := s.engine.run + 1
              line.pattern := none
              line.finding := none })
    ∧ ((∀ (s : State) (o : FaultOrder) (need : Need) (out : List Byte) (f : Frame), s.sends need out f → s.failsQuietly need →
          s.engine.run < 15 → s.line.finding = some .deadBit →
          exec (.driverFailure o) s = .next { endFrame s with engine.run := s.engine.run + 1 })
        ∧ ∀ (s : State) (o : FaultOrder) (f : Frame), s.engine.frame = some f → f.role = .receive → s.engine.run < 15 →
          s.line.finding = some .deadBit →
          exec (.driverFailure o) s =
            .next { s with engine.run := s.engine.run + 1, line.pattern := none, line.finding := none })

/-- CHECK_COMPLETE (R34): the check point; a SYNC's latch ends (R51); a COMMIT of a COMMITTING entry is its commit point (R134), and so is one
of an uncommitted HOST cancel, which goes on as a committed cancel of the members of the period (R134); a first CANCEL of a CANCELLING entry
is its cancel point (R145), with a report for a HOST cancel alone. -/
def Obligations.CheckCompleteIsThePointOfTheEntry : Prop :=
  ∀ (s : State) (need : Need) (out : List Byte) (f : Frame), s.sends need out f → s.line.finding = some .ownCheckDone →
    let t : State := { s with engine.frame := some { f with checkPoint := true }, line.finding := none }
    (need.kind = .sync → need.source = .roundEngine → exec .checkComplete s = .next { t with base.latch := none })
      ∧ ∀ e, need.source = .entry e.id → s.entry? e.id = some e →
        (need.kind = .commit → e.state = .committing →
            exec .checkComplete s =
              .next
                { t with
                  table.entries :=
                    insertEntry { e with state := .armed, armedSet := some (e.required.getD 0) }
                      (dropEntry e.id s.table.entries) })
          ∧ (need.kind = .commit → e.state = .cancelling → e.marks = some ⟨.host, false⟩ → e.armedSet = none →
            exec .checkComplete s =
              .next
                { t with
                  table.entries :=
                    insertEntry
                      { e with
                        armedSet := some (e.required.getD 0)
                        required := some (e.required.getD 0 &&& s.members)
                        acked := some 0
                        tries := some 0 }
                      (dropEntry e.id s.table.entries) })
          ∧ (need.kind = .cancel → e.state = .cancelling → e.marks = some ⟨.tries, false⟩ →
            exec .checkComplete s =
              .next
                { t with
                  table.entries := insertEntry { e with marks := some ⟨.tries, true⟩ } (dropEntry e.id s.table.entries) })
          ∧ (need.kind = .cancel → e.state = .cancelling → e.marks = some ⟨.host, false⟩ →
            exec .checkComplete s =
              .next
                { t with
                  table.entries := insertEntry { e with marks := some ⟨.host, true⟩ } (dropEntry e.id s.table.entries)
                  reports.records := s.reported (.actionCancelled e.id) s.ctl.state })

/-- FRAME_COMPLETED (R33, R34): the need leaves the list and the run becomes 0; a SYNC is sent (R74), a head MARK leaves its queue and
the next raises its need (R154), and a LEAVE takes the station to OFF (R103). -/
def Obligations.CompletedFrameReachesItsSource : Prop :=
  ∀ (s : State) (need : Need) (out : List Byte) (f : Frame), s.sends need out f → s.line.finding = some .ownFrameDone →
    s.holdsNeed need = true →
    let others := s.engine.needs.filter fun n => n.age != need.age
    let t : State := { endFrame s with engine := { s.engine with frame := none, run := 0, needs := others } }
    (need.source = .roundEngine → exec .frameCompleted s = .next { t with rounds.syncSent := true })
      ∧ (need.source = .controller → s.ctl.state = .leaving → exec .frameCompleted s = .next (goOff .left t))
      ∧ (need.source = .markQueue → s.capture.marks.length ≤ 1 →
        exec .frameCompleted s = .next { t with capture.marks := [] })
      ∧ (∀ id, need.source = .entry id → exec .frameCompleted s = .next (entryCompleted need.kind id f.ackSet true t))
      ∧ ∀ m n rest, need.source = .markQueue → s.capture.marks = m :: n :: rest → s.ctl.state.takesPart = true →
        exec .frameCompleted s =
          .next
            { t with
              capture.marks := n :: rest
              engine.needs := others.filter (fun n => n.source != .markQueue) ++ [⟨.mark, .markQueue, s.engine.nextAge⟩]
              engine.nextAge := s.engine.nextAge + 1 }

/-- The completed outcome of a PROPOSE (R132): the acks of the required set join, and the entry becomes COMMITTING, tries again, or at the
third try fails into CANCELLING with PROPOSAL_FAILED. The outcome and a left notice of one period (R149): either order leaves the same entry,
with the same sets, COMMITTING by the act that completes its set. That a PROPOSAL_FAILED which the third try has queued stands behind such a
notice is the model's choice (notes/assumptions/39.md). -/
def Obligations.CompletedProposeDecidesTheProposal : Prop :=
  (∀ (s : State) (e : Entry) (acks : StationSet) (held : Bool) (n : Station), s.entry? e.id = some e → e.state = .pending →
      e.scope = .shared → e.role = .owner → (s.table.entries.map Entry.id).Nodup →
      let outcomeFirst := (leftNotice n (entryCompleted .propose e.id acks held s)).entry? e.id
      let noticeFirst := (entryCompleted .propose e.id acks held (leftNotice n s)).entry? e.id
      let required := e.required.getD 0 &&& ~~~single n
      let missing := required &&& ~~~(e.acked.getD 0 ||| acks)
      outcomeFirst = noticeFirst
        ∧ ∃ x, outcomeFirst = some x ∧ x.required = some required
          ∧ (missing = 0 → x.state = .committing ∧ x.acked = some 0)
          ∧ (missing ≠ 0 → x.acked = some ((e.acked.getD 0 ||| (acks &&& e.required.getD 0)) &&& ~~~single n)))
    ∧ ∀ (s : State) (e : Entry) (acks : StationSet) (held : Bool), s.entry? e.id = some e → e.state = .pending →
    s.ctl.state.takesPart = true →
    let acked := e.acked.getD 0 ||| (acks &&& e.required.getD 0)
    let tries := e.tries.getD 0 + 1
    let missing := e.required.getD 0 &&& ~~~acked
    let others := dropEntry e.id s.table.entries
    let needs (kind : FrameKind) : List Need :=
      s.engine.needs.filter (fun n => n.source != .entry e.id) ++ [⟨kind, .entry e.id, s.engine.nextAge⟩]
    (missing = 0 →
        entryCompleted .propose e.id acks held s =
          { s with
            table.proposedNow := e.id :: s.table.proposedNow
            table.entries := insertEntry { e with state := .committing, tries := some 0, acked := some 0, marks := none } others
            engine.needs := needs .commit
            engine.nextAge := s.engine.nextAge + 1 })
      ∧ (missing ≠ 0 → tries < 3 →
        entryCompleted .propose e.id acks held s =
          { s with
            table.proposedNow := e.id :: s.table.proposedNow
            table.entries := insertEntry { e with tries := some tries, acked := some acked } others
            engine.needs := needs .propose
            engine.nextAge := s.engine.nextAge + 1 })
      ∧ (missing ≠ 0 → 3 ≤ tries →
        entryCompleted .propose e.id acks held s =
          { s with
            table.proposedNow := e.id :: s.table.proposedNow
            table.entries :=
              insertEntry { e with state := .cancelling, tries := some 0, acked := some acked, marks := some ⟨.tries, false⟩ } others
            engine.needs := needs .cancel
            engine.nextAge := s.engine.nextAge + 1
            reports.records := s.reported (.proposalFailed e.id missing .tries) s.ctl.state })

/-- The completed outcome of a COMMIT in follow-up (R131, R135): its acks join; where they cover the armed set, or it is the third, or the
deadline has come, the follow-up ends with ACTION_ARMED, and COMMIT_INCOMPLETE for the stations missing; else the COMMIT is raised again. The
completed outcome of a CANCEL (R145, R146): an uncommitted entry is removed; a committed one gathers acks until they cover its required set,
it has had three tries, or the outcome is the last, and then goes with CANCEL_INCOMPLETE. The failed outcome that is the last behind a
deadline (R135, R146), at a cut of its frame: it adds no acks and ends the follow-up or the cancel. That an outcome is the last stands in the
model's mark `finalAwaited` (notes/assumptions/20.md), of a COMMIT that is sent again behind a lost arbitration too (the model's choice,
notes/assumptions/38.md). -/
def Obligations.CompletedCommitAndCancelFollowUp : Prop :=
  (∀ (s : State) (e : Entry) (acks : StationSet), s.entry? e.id = some e → e.state = .armed → e.scope = .shared → e.role = .owner →
        let acked := e.acked.getD 0 ||| (acks &&& e.armedSet.getD 0 &&& e.required.getD 0)
        let tries := e.tries.getD 0 + 1
        let missing := e.armedSet.getD 0 &&& ~~~acked
        let goesOn := s.now < e.due - s.cfg.marginNs ∧ e.finalAwaited = false
        let rest := dropEntry e.id s.table.entries
        let others := s.engine.needs.filter fun n => n.source != .entry e.id
        let ended : State :=
          { s with
            table.entries := insertEntry { e with tries := some tries, acked := some acked, finalAwaited := false } rest
            engine.needs := others
            reports.records := s.reported (.actionArmed e.id (e.armedSet.getD 0)) s.ctl.state }
        (missing ≠ 0 → tries < 3 → goesOn → s.ctl.state.takesPart = true →
            entryCompleted .commit e.id acks true s =
              { s with
                table.entries := insertEntry { e with tries := some tries, acked := some acked } rest
                engine.needs := others ++ [⟨.commit, .entry e.id, s.engine.nextAge⟩]
                engine.nextAge := s.engine.nextAge + 1 })
          ∧ (missing = 0 → entryCompleted .commit e.id acks true s = ended)
          ∧ (missing ≠ 0 → 3 ≤ tries ∨ ¬goesOn →
            entryCompleted .commit e.id acks true s =
              { ended with
                reports.records :=
                  joinQueue 32 Report.lose ⟨.commitIncomplete e.id missing, s.now, s.ctl.state, 0⟩ ended.reports.records }))
    ∧ (∀ (s : State) (e : Entry) (acks : StationSet) (held : Bool), s.entry? e.id = some e → e.state = .cancelling →
        let acked := e.acked.getD 0 ||| (acks &&& e.required.getD 0)
        let tries := e.tries.getD 0 + 1
        let missing := e.required.getD 0 &&& ~~~acked
        let rest := dropEntry e.id s.table.entries
        let others := s.engine.needs.filter fun n => n.source != .entry e.id
        (e.armedSet = none ∨ missing = 0 →
            entryCompleted .cancel e.id acks held s = { s with table.entries := rest, engine.needs := others })
          ∧ (e.armedSet ≠ none → missing ≠ 0 → tries < 3 → e.finalAwaited = false → s.ctl.state.takesPart = true →
            entryCompleted .cancel e.id acks held s =
              { s with
                table.entries := insertEntry { e with tries := some tries, acked := some acked } rest
                engine.needs := others ++ [⟨.cancel, .entry e.id, s.engine.nextAge⟩]
                engine.nextAge := s.engine.nextAge + 1 })
          ∧ (e.armedSet ≠ none → missing ≠ 0 → 3 ≤ tries ∨ e.finalAwaited = true →
            entryCompleted .cancel e.id acks held s =
              { s with
                table.entries := rest
                engine.needs := others
                reports.records := s.reported (.cancelIncomplete e.id missing) s.ctl.state }))
    ∧ ∀ (s : State) (o : FaultOrder) (need : Need) (out : List Byte) (f : Frame) (e : Entry), s.sends need out f → f.cells ≠ [] →
      need.source = .entry e.id → s.entry? e.id = some e → e.finalAwaited = true → s.engine.run < 15 →
      ∀ cut ∈ cuts, s.line.finding = some cut.1 →
      let rest := dropEntry e.id s.table.entries
      let others := s.engine.needs.filter fun n => n.source != .entry e.id
      let armed := s.reported (.actionArmed e.id (e.armedSet.getD 0)) s.ctl.state
      let unarmed := e.armedSet.getD 0 &&& ~~~(e.acked.getD 0)
      let missing := e.required.getD 0 &&& ~~~(e.acked.getD 0)
      let t : State := endFrame s
      (need.kind = .commit → e.state = .armed → s.holdsNeed need = true →
          exec (cut.2 o) s =
            .next
              { t with
                engine.run := s.engine.run + 1
                table.entries := insertEntry { e with finalAwaited := false } rest
                engine.needs := others
                reports.records :=
                  if unarmed = 0 then armed
                  else joinQueue 32 Report.lose ⟨.commitIncomplete e.id unarmed, s.now, s.ctl.state, 0⟩ armed })
        ∧ (need.kind = .cancel → e.state = .cancelling →
          exec (cut.2 o) s =
            .next
              { t with
                engine.run := s.engine.run + 1
                table.entries := rest
                engine.needs := others
                reports.records :=
                  if e.armedSet = none ∨ missing = 0 then s.reports.records
                  else s.reported (.cancelIncomplete e.id missing) s.ctl.state })

/-! ### Acceptance of received frames -/

/-- SYNC_ACCEPTED in JOINING, SYNCED and HOLDOVER (R53, R59 to R61): the sender's entry, its sample, and the notices of its member flag: a
flag that falls to no hands on a left notice, without a report (R64). That PEER_JOINED, with state HOLDOVER, stands
before the STATE_CHANGED of the return is the model's choice (notes/assumptions/15.md). -/
def Obligations.SyncUpdatesItsSender : Prop :=
  ∀ (s : State) (o : FaultOrder) (f : Frame) (n : Station) (c : SyncContent) (l : Latch), s.accepts .sync f n →
    s.ctl.state.takesPart = true → decodeSync f.payload = some c → s.latchNow = some l →
    let offset : Int := (c.refTime + BitVec.ofNat 64 s.cfg.lineDelay - l.stamp).toInt
    let far : Bool := decide (s.cfg.stepThreshold * 1000 < offset.natAbs)
    let sampled : Bool := c.round == BitVec.ofNat 16 s.rounds.round && s.rounds.windowOpen
    let p := s.peer n
    let member : Bool := c.sender != .joining && !p.suspect && !far
    let t : State :=
      { s.afterAcceptance f true with
        peers :=
          s.peers.set n
            { p with
              present := true
              reported := some c.sender
              member := member
              lastRound := some c.round
              sample := if sampled then some offset else p.sample
              count := some c.count
              anchor := some (lowestWith n c.members)
              disagreeing := far }
        rounds.samples := if sampled then insertSample n offset s.rounds.samples else s.rounds.samples }
    let joined := s.reported (.peerJoined n) s.ctl.state
    (member = p.member → exec (.syncAccepted o) s = .next t)
      ∧ (member = true → p.member = false →
        (s.ctl.state = .joining → exec (.syncAccepted o) s = .next { t with reports.records := joined })
          ∧ (s.ctl.state = .synced →
            exec (.syncAccepted o) s = .next { t with reports.records := joined, rounds.peered := true })
          ∧ (s.ctl.state = .holdover →
            exec (.syncAccepted o) s =
              .next
                { t with
                  ctl.state := .synced
                  reports.records :=
                    joinQueue 32 Report.lose ⟨.stateChanged .holdover .synced .peerReturned, s.now, .synced, 0⟩ joined }))
      ∧ (member = false → p.member = true → exec (.syncAccepted o) s = .next (leftNotice n t))

/-- SYNC_ACCEPTED in LISTEN (R62, R98, R46): the fields that a SYNC carries, no ack, and adoption of a SYNCED or HOLDOVER sender. -/
def Obligations.ListeningStationAdopts : Prop :=
  ∀ (s : State) (o : FaultOrder) (f : Frame) (n : Station) (c : SyncContent) (l : Latch), s.accepts .sync f n →
    s.ctl.state = .listen → decodeSync f.payload = some c → s.latchNow = some l →
    let offset : Int := (c.refTime + BitVec.ofNat 64 s.cfg.lineDelay - l.stamp).toInt
    let t : State :=
      { s.afterAcceptance f false with
        peers :=
          s.peers.set n
            { s.peer n with
              present := true
              reported := some c.sender
              lastRound := some c.round
              count := some c.count
              anchor := some (lowestWith n c.members) } }
    (c.sender = .joining → exec (.syncAccepted o) s = .next t)
      ∧ (c.sender ≠ .joining →
        exec (.syncAccepted o) s =
          .next
            { t with
              base.pendingStep := some ⟨offset, .adopt⟩
              base.slew := 0
              ctl.state := .joining
              ctl.listenTimer := none
              reports.records := s.reported (.stateChanged .listen .joining .adopted) .joining })

/-- LEAVE_ACCEPTED (R63, R76): acked in any case; a present entry becomes absent with PEER_DROPPED and its sample leaves the list, and a
member's hands on a left notice (R64). That PEER_DROPPED stands before the HELD_DROPPED reports of the notice is the model's reading
(notes/assumptions/47.md). Behind a close of the same period that made the peer a suspect, this PEER_DROPPED is its second (the model's
choice, notes/assumptions/42.md). -/
def Obligations.LeaveEmptiesItsSendersEntry : Prop :=
  ∀ (s : State) (o : FaultOrder) (f : Frame) (n : Station), s.accepts .leave f n → s.ctl.state.takesPart = true →
    ((s.peer n).present = false → exec (.leaveAccepted o) s = .next (s.afterAcceptance f true))
      ∧ ((s.peer n).present = true →
        let t : State :=
          { s.afterAcceptance f true with
            peers := s.peers.set n Peer.absent
            rounds.samples := s.rounds.samples.filter fun x => x.1 != n
            reports.records := s.reported (.peerDropped n .leave) s.ctl.state }
        ((s.peer n).member = false → exec (.leaveAccepted o) s = .next t)
          ∧ ((s.peer n).member = true → exec (.leaveAccepted o) s = .next (leftNotice n t)))

/-- A left notice at the Action Protocol: every HELD copy of the station is removed with HELD_DROPPED in due list order (R141), and every
own PENDING proposal loses the station from its sets, and becomes COMMITTING with its COMMIT need where that covers it behind a first try
(R133); so does an own entry that has taken a completed PROPOSE in the same period and moved on to COMMITTING or CANCELLING (R149; whichever
event has moved it, notes/assumptions/39.md), and one that its third try has made CANCELLING becomes COMMITTING where the notice completes
its set; every other entry stays as it is. The two acts of it in full: the purge of a table without such own entries, and the pruning of
one; a table with neither kind of entry is left as it is. -/
def Obligations.LeftNoticePrunesAndPurges : Prop :=
  (∀ (s : State) (n : Station), (s.table.entries.map Entry.id).Nodup →
      let t := leftNotice n s
      t.reports.records =
          (s.table.entries.filter fun e => e.state == .held && e.id.owner == n).foldl
            (fun q e => joinQueue 32 Report.lose ⟨.heldDropped e.id, s.now, s.ctl.state, 0⟩ q) s.reports.records
        ∧ ∀ e ∈ s.table.entries,
          let proposed := e.scope = .shared ∧ e.role = .owner ∧ e.state = .pending
          let moved :=
            e.scope = .shared ∧ e.role = .owner ∧ (e.state = .committing ∨ e.state = .cancelling) ∧ e.id ∈ s.table.proposedNow
          let required := e.required.getD 0 &&& ~~~single n
          let acked := e.acked.getD 0 &&& ~~~single n
          (proposed → 1 ≤ e.tries.getD 0 → required &&& ~~~acked = 0 →
              t.entry? e.id =
                  some { e with required := some required, acked := some 0, tries := some 0, marks := none, state := .committing }
                ∧ (s.ctl.state.takesPart = true → needHeld t.engine.needs .commit (.entry e.id) = true))
            ∧ (proposed → e.tries.getD 0 = 0 ∨ required &&& ~~~acked ≠ 0 →
              t.entry? e.id = some { e with required := some required, acked := some acked })
            ∧ (moved → e.state = .cancelling → e.marks = some ⟨.tries, false⟩ → required &&& ~~~acked = 0 →
              t.entry? e.id =
                  some { e with required := some required, acked := some 0, tries := some 0, marks := none, state := .committing }
                ∧ (s.ctl.state.takesPart = true → needHeld t.engine.needs .commit (.entry e.id) = true))
            ∧ (moved → ¬(e.state = .cancelling ∧ e.marks = some ⟨.tries, false⟩ ∧ required &&& ~~~acked = 0) →
              t.entry? e.id = some { e with required := some required, acked := some acked })
            ∧ (e.state = .held → e.id.owner = n → t.entry? e.id = none)
            ∧ (¬proposed → ¬moved → ¬(e.state = .held ∧ e.id.owner = n) → t.entry? e.id = some e))
    ∧ (∀ (s : State) (n : Station), (∀ e ∈ s.table.entries, s.prunes e = false) →
      let gone := s.table.entries.filter fun e => e.state == .held && e.id.owner == n
      leftNotice n s =
        { s with
          table.entries := s.table.entries.filter fun e => !gone.any fun x => x.id == e.id
          engine.needs := s.engine.needs.filter fun k => !gone.any fun x => k.source == .entry x.id
          reports.records :=
            gone.foldl (fun q e => joinQueue 32 Report.lose ⟨.heldDropped e.id, s.now, s.ctl.state, 0⟩ q) s.reports.records })
    ∧ (∀ (s : State) (n : Station), s.unconcerned n → leftNotice n s = s)
    ∧ ∀ (s : State) (n : Station) (e : Entry), s.ctl.state.takesPart = true →
      let required := e.required.getD 0 &&& ~~~single n
      let acked := e.acked.getD 0 &&& ~~~single n
      let others := dropEntry e.id s.table.entries
      let commits := e.state = .pending ∧ 1 ≤ e.tries.getD 0 ∨ e.state = .cancelling ∧ e.marks = some ⟨.tries, false⟩
      (commits → required &&& ~~~acked = 0 →
          pruneEntry n e s =
            { s with
              table.entries :=
                insertEntry
                  { e with required := some required, acked := some 0, tries := some 0, marks := none, state := .committing } others
              engine.needs :=
                s.engine.needs.filter (fun k => k.source != .entry e.id) ++ [⟨.commit, .entry e.id, s.engine.nextAge⟩]
              engine.nextAge := s.engine.nextAge + 1 })
        ∧ (¬commits ∨ required &&& ~~~acked ≠ 0 →
          pruneEntry n e s =
            { s with table.entries := insertEntry { e with required := some required, acked := some acked } others })

/-- PROPOSE_ACCEPTED (R137): the conditions in their order, a HELD copy that replaces one of its id, and ID_CLASH at an ARMED one. A PROPOSE
that is taken before the deadline event that its HELD copy has in the same period replaces the copy, which then expires (R149); that it does
so whatever deadline it carries is the model's choice (notes/assumptions/40.md), and so is that a single PULSE of period 0 is well formed
(notes/assumptions/27.md). -/
def Obligations.ProposeMakesAHeldCopy : Prop :=
  ∀ (s : State) (o : FaultOrder) (f : Frame) (n : Station), s.accepts .propose f n → s.ctl.state.takesPart = true →
    let id : ActionId := ⟨n, f.payload.getD 0 0⟩
    let read := (decodeProposePayload f.payload).entry? id .shared .member .held
    let refused := exec (.proposeAccepted o) s = .next (s.afterAcceptance f false)
    (read = none → refused)
      ∧ ∀ e, read = some e →
        (¬(s.ctl.state = .synced ∧ (s.peer n).member = true ∧ (s.now < e.due - s.cfg.marginNs ∨ s.expires id = true)) → refused)
          ∧ (s.ctl.state = .synced → (s.peer n).member = true → s.expires id = true →
            let t : State :=
              { s.afterAcceptance f true with
                table.entries := insertEntry e (dropEntry id s.table.entries)
                table.expiring := id :: s.table.expiring }
            exec (.proposeAccepted o) s = .next t
              ∧ exec (.deadlineEvent id) t =
                .next
                  { t with
                    table.entries := dropEntry id s.table.entries
                    engine.needs := s.engine.needs.filter fun k => k.source != .entry id
                    reports.records := s.reported (.heldExpired id) s.ctl.state })
          ∧ (s.ctl.state = .synced → (s.peer n).member = true → s.now < e.due - s.cfg.marginNs → s.expires id = false →
            (s.entry? id = none → s.table.entries.length < 32 →
                exec (.proposeAccepted o) s =
                  .next { s.afterAcceptance f true with table.entries := insertEntry e (dropEntry id s.table.entries) })
              ∧ (s.entry? id = none → 32 ≤ s.table.entries.length → refused)
              ∧ ∀ x, s.entry? id = some x →
                (x.state = .held →
                    exec (.proposeAccepted o) s =
                      .next { s.afterAcceptance f true with table.entries := insertEntry e (dropEntry id s.table.entries) })
                  ∧ (x.state = .armed →
                    exec (.proposeAccepted o) s =
                      .next { s.afterAcceptance f false with reports.records := s.reported (.idClash id) s.ctl.state }))

/-- COMMIT_ACCEPTED (R138): a HELD copy becomes ARMED with the carried set where that holds the own number, and goes with HELD_DROPPED
where it does not; an ARMED one is acked again; without a copy nothing is acked. -/
def Obligations.CommitArmsTheHeldCopy : Prop :=
  ∀ (s : State) (o : FaultOrder) (f : Frame) (n : Station) (seq hi lo : Byte), s.accepts .commit f n →
    s.ctl.state.takesPart = true → f.payload = [seq, hi, lo] →
    let id : ActionId := ⟨n, seq⟩
    let set : StationSet := hi ++ lo
    (s.entry? id = none → exec (.commitAccepted o) s = .next (s.afterAcceptance f false))
      ∧ ∀ e, s.entry? id = some e →
        (e.state = .held → set.getLsbD s.own.val = true →
            exec (.commitAccepted o) s =
              .next
                { s.afterAcceptance f true with
                  table.entries :=
                    insertEntry { e with state := .armed, armedSet := some set } (dropEntry id s.table.entries) })
          ∧ (e.state = .held → set.getLsbD s.own.val = false →
            exec (.commitAccepted o) s =
              .next
                { s.afterAcceptance f false with
                  table.entries := dropEntry id s.table.entries
                  engine.needs := s.engine.needs.filter fun k => k.source != .entry id
                  reports.records := s.reported (.heldDropped id) s.ctl.state })
          ∧ (e.state = .armed → exec (.commitAccepted o) s = .next (s.afterAcceptance f true))

/-- CANCEL_ACCEPTED (R139): acked whether or not a copy is held; a copy goes without a report, and the outputs stay as they are. -/
def Obligations.AcceptedCancelRemovesTheCopy : Prop :=
  ∀ (s : State) (o : FaultOrder) (f : Frame) (n : Station), s.accepts .cancel f n → s.ctl.state.takesPart = true →
    let id : ActionId := ⟨n, f.payload.getD 0 0⟩
    exec (.cancelAccepted o) s =
      .next
        { s.afterAcceptance f true with
          table.entries := s.table.entries.filter fun e => e.id != id
          engine.needs := s.engine.needs.filter fun k => k.source != .entry id }

/-- A received frame that fails the test, or comes in LEAVING, or is no SYNC and comes in LISTEN, or is a malformed SYNC, leaves no state and is
not acked (R29, R30, R58). The duplicate test (R40, R107): a received frame with a good check and the own number takes the station to FAULT
(DUPLICATE), whatever its length and the station's conditions. -/
def Obligations.FramesThatNoBlockTakes : Prop :=
  (∀ (s : State) (o : FaultOrder) (f : Frame), ∀ row ∈ acceptanceRows, s.line.finding = some .acceptance →
        s.engine.frame = some f → f.role = .receive → f.kind? = some row.1 → f.isDuplicate s.own = false →
        f.passes row.1 = none ∨ s.ctl.state = .leaving ∨ (s.ctl.state = .listen ∧ row.1 ≠ .sync)
          ∨ (row.1 = .sync ∧ decodeSync f.payload = none) →
        exec (row.2 o) s = .next (s.afterAcceptance f false))
    ∧ (∀ (s : State) (o : FaultOrder) (f : Frame), ∀ row ∈ acceptanceRows, s.line.finding = some .acceptance →
        s.engine.frame = some f → f.role = .receive → f.kind? = some row.1 → f.checkGood = true → f.sender? = some s.own →
        exec (row.2 o) s =
          .next
            (enterFault .duplicate .duplicate o
              { s with engine.frame := some { f with checkPoint := true }, line.finding := none }))

/-! ### Time, rounds, actions and captures -/

/-- LISTEN_TIMEOUT (R97, R78): the station founds its own time and its round state is reset on it. ROUND_START (R73): the round of common
time, an open window, no SYNC sent, and the SYNC need of the round. -/
def Obligations.FoundingAndRoundStart : Prop :=
  (∀ (s : State) (start : Time), s.ctl.state = .listen → s.ctl.listenTimer = some start →
        3 * s.cfg.roundLength ≤ (s.now - start).toNat →
        let round := s.now.toNat / s.cfg.roundLength
        exec .listenTimeout s =
          .next
            { s with
              ctl.state := .synced
              ctl.listenTimer := none
              rounds :=
                { s.rounds with
                  active := true
                  round := round
                  windowOpen := decide (s.now.toNat < round * s.cfg.roundLength + s.cfg.roundLength / 2)
                  samples := []
                  syncSent := true
                  joinRun := 0 }
              peers := s.peers.map fun p => { p with sample := none }
              engine.needs := s.engine.needs.filter fun n => n.source != .roundEngine
              reports.records := s.reported (.stateChanged .listen .synced .founded) .synced })
    ∧ (∀ s : State, s.rounds.active = true → s.noticeDue = none → s.ctl.state.takesPart = true →
        s.now.toNat / s.cfg.roundLength ≠ s.rounds.round →
        exec .roundStart s =
          .next
            { s with
              rounds.round := s.now.toNat / s.cfg.roundLength
              rounds.windowOpen := true
              rounds.syncSent := false
              engine.needs := s.engine.needs.filter (fun n => n.source != .roundEngine) ++ [⟨.sync, .roundEngine, s.engine.nextAge⟩]
              engine.nextAge := s.engine.nextAge + 1 })

/-- ROUND_CLOSE (R74, R79, R82, R83, R68): the correction, the slew and trim it requests, the end of the window, of an unsent SYNC and of
the samples. The samples it uses (R80). The whole close in its stages (R79): the correction and the requests with one RATE_LIMIT where either
is clamped (R84), then the judgement of every entry in the order given (R69), then a yield, or qualification and the holdover test, each as
its own statement says it, and last the samples cleared (R68). That the stations which the row does not list follow in ascending order
(notes/assumptions/12.md) and the six orders of a yield (notes/assumptions/13.md) are the model's choices. -/
def Obligations.CloseSteersTheClock : Prop :=
  (∀ s : State,
      s.usedSamples =
        (s.rounds.samples.filter fun x =>
            (s.peer x.1).member && !(s.peer x.1).suspect && (s.peer x.1).reported == some .synced
              && decide (x.2.natAbs ≤ s.cfg.stepThreshold * 1000)).map
          fun x => x.2)
    ∧ (∀ (s : State) (o : CloseOrder), o.stations.Nodup → s.rounds.active = true → s.rounds.windowOpen = true →
      s.noticeDue = none → s.ctl.state.takesPart = true →
      s.rounds.round * s.cfg.roundLength + s.cfg.roundLength / 2 ≤ s.now.toNat →
      let c := correction s.usedSamples
      let q := (c * 1000).tdiv (roundMs s.cfg.roundCode)
      let wanted := s.base.trim + q.tdiv 4
      let trims : Bool := !s.usedSamples.isEmpty && s.ctl.state != .holdover
      let requested : State :=
        { s with
          engine.needs := if s.rounds.syncSent then s.engine.needs else s.engine.needs.filter fun n => n.source != .roundEngine
          base.slew := max (-500000) (min 500000 q)
          base.trim := if trims then max (-200000) (min 200000 wanted) else s.base.trim
          rounds.windowOpen := false
          rounds.lastCorrection := c
          reports.records :=
            if q < -500000 ∨ 500000 < q ∨ (trims = true ∧ (wanted < -200000 ∨ 200000 < wanted)) then
              s.reported .rateLimit s.ctl.state
            else s.reports.records }
      let judged : State :=
        (o.stations ++ allStations.filter fun n => !o.stations.contains n).foldl (fun u n => judgePeer c n u) requested
      let t : State :=
        match judged.yieldTarget with
        | some k => yieldTo k o judged
        | none => closeStage7 s.ctl.state (closeStage6 c judged)
      exec (.roundClose o) s =
        .next
          { t with
            peers := t.peers.map fun p => { p with sample := none }
            rounds.samples := [] })
    ∧ ∀ (s : State) (o : CloseOrder), s.rounds.active = true → s.rounds.windowOpen = true → s.noticeDue = none →
    s.ctl.state.takesPart = true →
    s.rounds.round * s.cfg.roundLength + s.cfg.roundLength / 2 ≤ s.now.toNat →
    let c := correction s.usedSamples
    let q := (c * 1000).tdiv (roundMs s.cfg.roundCode)
    ∃ t, exec (.roundClose o) s = .next t
      ∧ t.rounds.lastCorrection = c ∧ t.rounds.windowOpen = false ∧ t.rounds.samples = [] ∧ t.rounds.round = s.rounds.round
      ∧ (∀ n : Station, (t.peer n).sample = none)
      ∧ t.base.trim =
        (if s.usedSamples ≠ [] ∧ s.ctl.state ≠ .holdover then max (-200000) (min 200000 (s.base.trim + q.tdiv 4))
          else s.base.trim)
      ∧ (s.candidates = [] →
        t.base.slew = max (-500000) (min 500000 q) ∧ t.base.pendingStep = s.base.pendingStep)
      ∧ (s.rounds.syncSent = false → ∀ n ∈ t.engine.needs, n.source ≠ .roundEngine)
      ∧ (t.base.time = s.base.time ∧ t.base.fraction = s.base.fraction ∧ t.base.running = s.base.running
        ∧ t.base.latch = s.base.latch)
      ∧ (t.line = s.line ∧ t.engine.frame = s.engine.frame ∧ t.engine.run = s.engine.run ∧ t.capture = s.capture
        ∧ t.port = s.port ∧ t.inForce = s.inForce ∧ t.straps = s.straps ∧ t.table.outputs = s.table.outputs
        ∧ t.pending = s.pending)

/-- The correction (R81): the own 0 ns and the used samples, without one largest and one smallest from four values on; the mean rounded
toward zero. It never exceeds the largest magnitude used. -/
def Obligations.CorrectionIsTheTrimmedMean : Prop :=
  (∀ used : List Int, used.length ≤ 2 → correction used = used.sum.tdiv (used.length + 1))
    ∧ (∀ (used rest : List Int) (low high : Int), 3 ≤ used.length → (0 :: used).Perm (low :: high :: rest) →
      low ≤ high → (∀ v ∈ rest, low ≤ v ∧ v ≤ high) → correction used = rest.sum.tdiv rest.length)
    ∧ ∀ (used : List Int) (limit : Nat), (∀ v ∈ used, v.natAbs ≤ limit) → (correction used).natAbs ≤ limit

/-- The judgement of one entry at a close (R65 to R67): misses, outliers of a member, good closes of a suspect, each with the left or the
joined notice that it hands on (R64): a restored member ends HOLDOVER (R100) and sets the peered flag in SYNCED (R89). That PEER_RESTORED,
with state HOLDOVER, stands before the STATE_CHANGED of that return is the model's reading (notes/assumptions/15.md), and so is that
PEER_DROPPED stands before the HELD_DROPPED reports of its left notice (notes/assumptions/47.md). ROUND_CLOSE without a merge candidate
(R79, R68): every entry is so judged against the correction, once, and its sample cleared, in whatever order the stations stand. -/
def Obligations.CloseJudgesEachPeer : Prop :=
  (∀ (s : State) (o : CloseOrder), s.rounds.active = true → s.rounds.windowOpen = true → s.noticeDue = none →
      s.rounds.round * s.cfg.roundLength + s.cfg.roundLength / 2 ≤ s.now.toNat → s.candidates = [] → o.stations.Nodup →
      ∃ t, exec (.roundClose o) s = .next t
        ∧ ∀ n : Station, t.peer n = { (judgePeer (correction s.usedSamples) n s).peer n with sample := none })
    ∧ ∀ (s : State) (c : Int) (n : Station),
    let p := s.peer n
    let write (q : Peer) : State := { s with peers := s.peers.set n q }
    let bad (v : Int) : Prop := s.cfg.syncTolerance < (v - c).natAbs
    (p.present = false → judgePeer c n s = s)
      ∧ (p.present = true → p.sample = none → p.missRun < 2 → judgePeer c n s = write { p with missRun := p.missRun + 1 })
      ∧ (p.present = true → p.sample = none → 2 ≤ p.missRun →
        let t : State := { write Peer.absent with reports.records := s.reported (.peerDropped n .misses) s.ctl.state }
        (p.member = false → judgePeer c n s = t) ∧ (p.member = true → judgePeer c n s = leftNotice n t))
      ∧ ∀ v, p.present = true → p.sample = some v →
        (p.member = true → ¬bad v → judgePeer c n s = write { p with missRun := 0, outlierRun := 0 })
          ∧ (p.member = true → bad v → p.outlierRun < 3 →
            judgePeer c n s = write { p with missRun := 0, outlierRun := p.outlierRun + 1 })
          ∧ (p.member = true → bad v → 3 ≤ p.outlierRun →
            judgePeer c n s =
              leftNotice n
                { write { p with missRun := 0, outlierRun := 4, suspect := true, member := false, goodRun := 0 } with
                  reports.records := s.reported (.peerDropped n .suspect) s.ctl.state })
          ∧ (p.member = false → p.suspect = true → bad v → judgePeer c n s = write { p with missRun := 0, goodRun := 0 })
          ∧ (p.member = false → p.suspect = true → ¬bad v → p.goodRun < 3 →
            judgePeer c n s = write { p with missRun := 0, goodRun := p.goodRun + 1 })
          ∧ (p.member = false → p.suspect = true → ¬bad v → 3 ≤ p.goodRun →
            let joins : Prop := (p.reported = some .synced ∨ p.reported = some .holdover) ∧ p.disagreeing = false
            let restored (member : Bool) : State :=
              { write { p with missRun := 0, suspect := false, outlierRun := 0, goodRun := 0, member := member } with
                reports.records := s.reported (.peerRestored n) s.ctl.state }
            (¬joins → judgePeer c n s = restored false)
              ∧ (joins → s.ctl.state = .joining → judgePeer c n s = restored true)
              ∧ (joins → s.ctl.state = .synced → judgePeer c n s = { restored true with rounds.peered := true })
              ∧ (joins → s.ctl.state = .holdover →
                judgePeer c n s =
                  { restored true with
                    ctl.state := .synced
                    reports.records :=
                      joinQueue 32 Report.lose ⟨.stateChanged .holdover .synced .peerReturned, s.now, .synced, 0⟩
                        (restored true).reports.records }))
          ∧ (p.member = false → p.suspect = false → judgePeer c n s = write { p with missRun := 0 })

/-- The merge rule (R85, R86): the selected candidate has the largest count, then the lowest anchor, then the lowest station number, and the
station yields to a larger count, or to an equal one with a lower anchor. A yield (R87, R101, R125) of a station without members: the merge step,
JOINING, and every SHARED entry discarded under one MERGE_DROPPED, in either order of the two reports. A yield of any station (R68, R87, R125):
the merge step, JOINING, every member flag cleared and nothing else of the entries, no SHARED entry left and, in a sound table, every LOCAL one
kept. -/
def Obligations.MergeYieldsToTheLargerGroup : Prop :=
  ((∀ list : List Candidate,
          (selectCandidate list = none ↔ list = [])
            ∧ ∀ k, selectCandidate list = some k →
              k ∈ list
                ∧ ∀ m ∈ list, m.count < k.count
                  ∨ (m.count = k.count ∧ (k.anchor < m.anchor ∨ (k.anchor = m.anchor ∧ k.station ≤ m.station))))
        ∧ ∀ (s : State) (k : Candidate), s.yieldTarget = some k ↔
          selectCandidate s.candidates = some k
            ∧ (s.memberCount < k.count ∨ (k.count = s.memberCount ∧ k.anchor < s.anchor)))
    ∧ (∀ (s : State) (k : Candidate) (o : CloseOrder), s.ctl.state.takesPart = true → s.entriesSound →
        (s.table.entries.map Entry.id).Nodup →
        let t := yieldTo k o s
        t.ctl.state = .joining ∧ t.base.pendingStep = some ⟨k.sample, .merge⟩ ∧ t.base.slew = 0 ∧ t.rounds.joinRun = 0
          ∧ (∀ n : Station, t.peer n = { s.peer n with member := false })
          ∧ (∀ e ∈ t.table.entries, e.scope = .loc)
          ∧ ∀ e ∈ s.table.entries, e.scope = .loc → t.entry? e.id = some e)
    ∧ (∀ (s : State) (k : Candidate) (o : CloseOrder), s.ctl.state.takesPart = true → (∀ n : Station, (s.peer n).member = false) →
        let shared := s.table.entries.filter fun e => e.scope == .shared
        let discardFirst := o.yield ∈ [YieldOrder.noticesDiscardMove, .discardNoticesMove, .discardMoveNotices]
        let report (state : StationState) (kind : ReportKind) (q : List Report) : List Report :=
          joinQueue 32 Report.lose ⟨kind, s.now, state, 0⟩ q
        yieldTo k o s =
          { s with
            base.pendingStep := some ⟨k.sample, .merge⟩
            base.slew := 0
            rounds.joinRun := 0
            ctl.state := .joining
            table.entries := s.table.entries.filter fun e => !shared.any fun x => x.id == e.id
            engine.needs := s.engine.needs.filter fun n => !shared.any fun x => n.source == .entry x.id
            reports.records :=
              if discardFirst then
                report .joining (.stateChanged s.ctl.state .joining .merged)
                  (report s.ctl.state (.mergeDropped shared.length) s.reports.records)
              else
                report .joining (.mergeDropped shared.length)
                  (report .joining (.stateChanged s.ctl.state .joining .merged) s.reports.records) })

/-- Join qualification and the holdover test (R88, R89, R90, R100): three closes in a row within the sync tolerance make a JOINING station
SYNCED; a SYNCED station that was peered and has no member goes to HOLDOVER. -/
def Obligations.QualificationAndHoldover : Prop :=
  ∀ (s : State) (c : Int),
    (s.ctl.state ≠ .joining → closeStage6 c s = s)
      ∧ (s.ctl.state = .joining →
        (s.cfg.syncTolerance < c.natAbs → closeStage6 c s = { s with rounds.joinRun := 0 })
          ∧ (c.natAbs ≤ s.cfg.syncTolerance → s.rounds.joinRun < 2 →
            closeStage6 c s = { s with rounds.joinRun := s.rounds.joinRun + 1 })
          ∧ (c.natAbs ≤ s.cfg.syncTolerance → 2 ≤ s.rounds.joinRun →
            closeStage6 c s =
              { s with
                ctl.state := .synced
                rounds.joinRun := 0
                rounds.peered := s.rounds.peered || s.members != 0
                reports.records := s.reported (.stateChanged .joining .synced .qualified) .synced }))
      ∧ (s.ctl.state = .synced → s.rounds.peered = true → s.members = 0 →
        closeStage7 .synced s =
          { s with
            ctl.state := .holdover
            reports.records := s.reported (.stateChanged .synced .holdover .holdoverEntered) .holdover })
      ∧ (s.rounds.peered = false ∨ s.members ≠ 0 → closeStage7 .synced s = s)
      ∧ ∀ before, before ≠ .synced → closeStage7 before s = s

/-- STEP_NOTICE (R47, R48, R51, R77, R121) of a backward step, or with an empty table: STEPPED, the latch and the pulse ends shifted, and
the round state reset where the station takes part; that STEPPED is queued in every other state too, OFF among them, is the model's choice
(notes/assumptions/17.md). Of a forward step with entries (R115, R122): where the stepped time reaches the due of a SHARED entry whose deadline
event is still to be taken, that event is answered first: an entry it removes does not fire, one that waits for the last outcome of its CANCEL
stays with the model's mark (notes/assumptions/20.md), and one it returns to ARMED fires late. Each ARMED entry that the stepped time reaches
then fires once and goes on, or ends, as a late firing does, and every other entry stays. For a table of one entry the output, with the new end
of a late pulse (R119), and the reports, those of the deadline event before those of the firing, with STEPPED before or behind them all
(notes/assumptions/17.md). That a firing ends or passes an open follow-up without its reports is the model's choice
(notes/assumptions/48.md). -/
def Obligations.StepNoticeShiftsTheScale : Prop :=
  (∀ (s : State) (steppedFirst : Bool) (st : TimeStep), s.base.notice = some ⟨st, true⟩ → 0 < st.amount →
      (s.table.entries.map Entry.id).Nodup →
      ∃ t, exec (.stepNotice steppedFirst) s = .next t
        ∧ ∀ e ∈ s.table.entries,
          let fired (x : Entry) : Option Entry :=
            if x.state = .armed ∧ x.due ≤ s.now ∧ x.id ∉ s.table.firedNow then
              if (x.planLate s.now).ends then none
              else
                some
                  { x with
                    fired := min 65535 (x.fired + 1)
                    skipped := min 65535 (x.skipped + (x.planLate s.now).skip)
                    due := (x.planLate s.now).due }
            else some x
          let answered := s.deadlineBeforeDue e = true
          let reached := ∃ r, e.marks = some ⟨r, true⟩
          let awaits := ∃ need out f, s.sends need out f ∧ need.source = .entry e.id ∧ need.kind = .cancel ∧ f.checkPoint = true
          (¬answered → t.entry? e.id = fired e)
            ∧ (answered → e.state = .pending ∨ e.state = .committing ∨ e.state = .held → t.entry? e.id = none)
            ∧ (answered → e.state = .cancelling →
              (reached → awaits → t.entry? e.id = some { e with finalAwaited := true })
                ∧ (reached → ¬awaits → t.entry? e.id = none)
                ∧ (¬reached → e.armedSet = none → t.entry? e.id = none)
                ∧ (¬reached → e.armedSet ≠ none →
                  t.entry? e.id = fired { e with state := .armed, marks := none, finalAwaited := false })))
    ∧ (∀ (s : State) (steppedFirst : Bool) (st : TimeStep) (e : Entry), s.base.notice = some ⟨st, true⟩ → 0 < st.amount →
      s.table.entries = [e] → e.due ≤ s.now → s.table.firedNow = [] → s.table.firedOutputs = [] →
      (e.planLate s.now).skip ≤ 65535 →
      let shifted (o : Output) : Output := { o with pulseEnd := o.pulseEnd.map fun p => p + BitVec.ofInt 64 st.amount }
      let report (kind : ReportKind) (q : List Report) : List Report := joinQueue 32 Report.lose ⟨kind, s.now, s.ctl.state, 0⟩ q
      let stepped := report (.stepped st.amount st.cause)
      let flags : FiringFlags :=
        ⟨true, s.ctl.state == .holdover, s.ctl.state == .listen || s.ctl.state == .joining || s.ctl.state == .fault⟩
      let returned (q : List Report) : List Report := if e.state = .cancelling then report (.cancelLate e.id .deadline) q else q
      let fired (q : List Report) : List Report :=
        if e.mode = .each then
          report
            (.actionFired e.id (min 65535 (e.fired + e.skipped + 1)) (s.now - e.due) flags
              (BitVec.ofNat 16 (e.planLate s.now).skip)) q
        else q
      let done (q : List Report) : List Report := if (e.planLate s.now).ends then report (.actionDone e.id) q else q
      let missing := e.required.getD 0 &&& ~~~(e.acked.getD 0)
      let removal : Option ReportKind :=
        match e.state with
        | .pending => some (.proposalFailed e.id missing .late)
        | .committing => some (.proposalFailed e.id missing .late)
        | .held => some (.heldExpired e.id)
        | _ =>
          if e.armedSet = none then if e.marks = some ⟨.host, false⟩ then some (.actionCancelled e.id) else none
          else if missing = 0 then none
          else some (.cancelIncomplete e.id missing)
      let removed (q : List Report) : List Report :=
        match removal with
        | some kind => report kind q
        | none => q
      (e.state = .armed ∨ s.deadlineDue e = true ∧ e.state = .cancelling ∧ e.armedSet ≠ none ∧ (∃ r, e.marks = some ⟨r, false⟩) →
          ∃ t, exec (.stepNotice steppedFirst) s = .next t
            ∧ t.table.outputs =
              (s.table.outputs.map shifted).set e.output
                (((shifted (s.output e.output)).endPulse s.now).apply e.edge
                  (s.now + BitVec.ofNat 64 ((e.width.getD 0).toNat * 100)))
            ∧ t.reports.records =
              if steppedFirst then done (fired (returned (stepped s.reports.records)))
              else stepped (done (fired (returned s.reports.records))))
        ∧ (s.deadlineDue e = true →
          e.state ∈ [EntryState.pending, .committing, .held]
            ∨ e.state = .cancelling ∧ (∃ r, e.marks = some ⟨r, false⟩) ∧ e.armedSet = none
            ∨ e.state = .cancelling ∧ (∃ r, e.marks = some ⟨r, true⟩)
              ∧ (∀ need out f, s.sends need out f → need.source = .entry e.id → need.kind = .cancel → f.checkPoint = false) →
          ∃ t, exec (.stepNotice steppedFirst) s = .next t
            ∧ t.table.entries = [] ∧ t.table.outputs = s.table.outputs.map shifted
            ∧ t.reports.records =
              if steppedFirst then removed (stepped s.reports.records) else stepped (removed s.reports.records)))
    ∧ ∀ (s : State) (steppedFirst : Bool) (st : TimeStep), s.base.notice = some ⟨st, true⟩ →
    st.amount ≤ 0 ∨ s.table.entries = [] →
    let shift (t : Time) : Time := t + BitVec.ofInt 64 st.amount
    let round := s.now.toNat / s.cfg.roundLength
    let t : State :=
      { s with
        base.notice := some ⟨st, false⟩
        base.latch := s.base.latch.map fun l => if l.edge = s.period then l else { l with stamp := shift l.stamp }
        table.outputs := s.table.outputs.map fun o => { o with pulseEnd := o.pulseEnd.map shift }
        reports.records := s.reported (.stepped st.amount st.cause) s.ctl.state }
    (s.ctl.state.takesPart = false → exec (.stepNotice steppedFirst) s = .next t)
      ∧ (s.ctl.state.takesPart = true →
        exec (.stepNotice steppedFirst) s =
          .next
            { t with
              rounds :=
                { s.rounds with
                  active := true
                  round := round
                  windowOpen := decide (s.now.toNat < round * s.cfg.roundLength + s.cfg.roundLength / 2)
                  samples := []
                  syncSent := true
                  joinRun := 0 }
              peers := s.peers.map fun p => { p with sample := none }
              engine.needs := s.engine.needs.filter fun n => n.source != .roundEngine })

/-- ACTION_DUE (R114, R116, R118, R119) without a forward step: the first due entry applies its edge and reports itself, and then goes on with its
period or ends with ACTION_DONE. PULSE_END (R120): a pulse end that common time has reached takes the output low; the first firing of
the period on an output does so too before it applies its edge, and a later one does not. A late firing (R122): with `k`
occurrences reached by the stepped time, the first fires and the others are skipped; a counted entry ends where they use up its count.
That a firing ends or passes an open follow-up without ACTION_ARMED and COMMIT_INCOMPLETE is the model's choice (notes/assumptions/48.md). -/
def Obligations.DueActionsFire : Prop :=
  ((∀ (edge : ActionEdge) (t : Time) (o : Output),
          o.apply edge t =
            match edge, o.pulseEnd with
            | .rise, _ => ⟨true, none⟩
            | .fall, _ => ⟨false, none⟩
            | .toggle, _ => ⟨!o.high, none⟩
            | .pulse, none => ⟨true, some t⟩
            | .pulse, some p => ⟨true, some (if p < t then t else p)⟩)
        ∧ (∀ s : State, s.noticeDue = none → (∀ e ∈ s.table.entries, s.deadlineBeforeDue e = false) →
          s.nextFiring = s.table.entries.find? fun e => e.state == .armed && decide (e.due ≤ s.now) && !s.table.firedNow.contains e.id)
        ∧ ∀ (s : State) (e : Entry), s.nextFiring = some e → s.forwardStepPeriod = false →
          let report (kind : ReportKind) (q : List Report) : List Report := joinQueue 32 Report.lose ⟨kind, s.now, s.ctl.state, 0⟩ q
          let flags : FiringFlags :=
            ⟨false, s.ctl.state == .holdover, s.ctl.state == .listen || s.ctl.state == .joining || s.ctl.state == .fault⟩
          let records :=
            if e.mode = .each then
              report (.actionFired e.id (min 65535 (e.fired + e.skipped + 1)) (s.now - e.due) flags 0) s.reports.records
            else s.reports.records
          let before : Output :=
            if e.output ∈ s.table.firedOutputs then s.output e.output
            else if (match (s.output e.output).pulseEnd with | some p => decide (p ≤ s.now) | none => false) then ⟨false, none⟩
            else s.output e.output
          let t : State :=
            { s with
              table.outputs :=
                s.table.outputs.set e.output (before.apply e.edge (e.due + BitVec.ofNat 64 ((e.width.getD 0).toNat * 100)))
              table.firedNow := e.id :: s.table.firedNow
              table.firedOutputs := e.output :: s.table.firedOutputs
              reports.records := records }
          (e.count = 0 ∨ e.fired + 1 + e.skipped < e.count.toNat →
              exec .actionDue s =
                .next
                  { t with
                    table.entries :=
                      insertEntry
                        { e with
                          fired := min 65535 (e.fired + 1)
                          skipped := min 65535 e.skipped
                          due := e.due + e.period.setWidth 64 }
                        (dropEntry e.id s.table.entries) })
            ∧ (e.count ≠ 0 → e.count.toNat ≤ e.fired + 1 + e.skipped →
              exec .actionDue s =
                .next
                  { t with
                    table.entries := dropEntry e.id s.table.entries
                    engine.needs := s.engine.needs.filter fun n => n.source != .entry e.id
                    reports.records := report (.actionDone e.id) records }))
    ∧ (∀ (s : State) (c : Channel) (p : Time), s.noticeDue = none → c ∉ s.table.firedOutputs → (s.output c).pulseEnd = some p →
        p ≤ s.now →
        exec (.pulseEnd c) s = .next { s with table.outputs := s.table.outputs.set c ⟨false, none⟩ })
    ∧ (∀ (e : Entry) (now : Time) (k : Nat), e.due ≤ now → 1 ≤ k →
        (e.period = 0 ∧ k = 1
          ∨ e.period ≠ 0 ∧ e.due.toNat + (k - 1) * e.period.toNat ≤ now.toNat ∧ now.toNat < e.due.toNat + k * e.period.toNat) →
        let left := e.count.toNat - e.fired - e.skipped
        (e.count = 0 ∨ k < left → e.planLate now = ⟨k - 1, false, e.due + BitVec.ofNat 64 (k * e.period.toNat)⟩)
          ∧ (e.count ≠ 0 → left ≤ k → (e.planLate now).ends = true ∧ (e.planLate now).skip = left - 1))

/-- DEADLINE_EVENT of a HELD entry (R140): it is removed with HELD_EXPIRED, and its id names no entry any more. -/
def Obligations.HeldCopyExpires : Prop :=
  ∀ (s : State) (e : Entry), s.entry? e.id = some e → e.scope = .shared → e.state = .held → e.finalAwaited = false →
    e.due - s.cfg.marginNs ≤ s.now →
    ∃ t, exec (.deadlineEvent e.id) s = .next t ∧ t.entry? e.id = none
      ∧ t =
        { s with
          table.entries := dropEntry e.id s.table.entries
          engine.needs := s.engine.needs.filter fun n => n.source != .entry e.id
          reports.records := s.reported (.heldExpired e.id) s.ctl.state }

/-- DEADLINE_EVENT of an owner entry (R136, R146) and FOLLOW_UP_DEADLINE (R135), whatever frame is in flight. An owner cut (R38) takes a frame
of the entry before its check point: a PROPOSE, COMMIT or CANCEL of a proposal, a CANCEL of a cancel, and a COMMIT too of an uncommitted HOST
cancel; every other frame, another source's or one past its check point, runs on. Then: PROPOSAL_FAILED, and an outcome of a frame that ran on
reaches no entry; the return of a committed cancel to ARMED; the end of an uncommitted one and of one behind its cancel point; and the end of a
follow-up. Where the last COMMIT or CANCEL is in flight, the entry waits for its outcome under the model's mark (notes/assumptions/20.md). -/
def Obligations.OwnerDeadlinesEndTheirPhase : Prop :=
  ∀ (s : State) (e : Entry), s.entry? e.id = some e → e.scope = .shared → e.finalAwaited = false →
    e.due - s.cfg.marginNs ≤ s.now →
    let others := dropEntry e.id s.table.entries
    let missing := e.required.getD 0 &&& ~~~(e.acked.getD 0)
    let cutKinds : List FrameKind :=
      if e.state ≠ .cancelling then [.propose, .commit, .cancel]
      else if e.armedSet = none ∧ (e.marks = some ⟨.host, false⟩ ∨ e.marks = some ⟨.host, true⟩) then [.cancel, .commit]
      else [.cancel]
    let isCut (need : Need) (f : Frame) : Prop := need.source = .entry e.id ∧ need.kind ∈ cutKinds ∧ f.checkPoint = false
    (∀ b : State,
        (b = s ∧ ∀ need out f, s.sends need out f → ¬isCut need f)
            ∨ (∃ need out f, s.sends need out f ∧ isCut need f
              ∧ b = { endFrame s with engine := { s.engine with frame := none, needs := s.engine.needs.filter fun n => n.age != need.age } }) →
        let needs := b.engine.needs.filter fun n => n.source != .entry e.id
        let removed (records : List Report) : State :=
          { b with table.entries := others, engine.needs := needs, reports.records := records }
        (e.state = .pending ∨ e.state = .committing →
            let t := removed (s.reported (.proposalFailed e.id missing .late) s.ctl.state)
            exec (.deadlineEvent e.id) s = .next t
              ∧ ∀ kind acks held, entryCompleted kind e.id acks held t = t ∧ entryFailed kind e.id held t = t)
          ∧ (∀ r set, e.state = .cancelling → e.marks = some ⟨r, false⟩ → e.armedSet = some set →
            exec (.deadlineEvent e.id) s =
              .next
                { b with
                  table.entries := insertEntry { e with state := .armed, marks := none, finalAwaited := false } others
                  engine.needs := needs
                  reports.records := s.reported (.cancelLate e.id .deadline) s.ctl.state })
          ∧ (e.state = .cancelling → e.marks = some ⟨.host, false⟩ → e.armedSet = none →
            exec (.deadlineEvent e.id) s = .next (removed (s.reported (.actionCancelled e.id) s.ctl.state)))
          ∧ (e.state = .cancelling → e.marks = some ⟨.tries, false⟩ → e.armedSet = none →
            exec (.deadlineEvent e.id) s = .next (removed s.reports.records))
          ∧ (∀ r, e.state = .cancelling → e.marks = some ⟨r, true⟩ →
            (∀ need out f, s.sends need out f → need.source = .entry e.id → need.kind = .cancel → f.checkPoint = false) →
            exec (.deadlineEvent e.id) s =
              .next
                (removed
                  (if e.armedSet = none ∨ missing = 0 then s.reports.records
                  else s.reported (.cancelIncomplete e.id missing) s.ctl.state))))
      ∧ (∀ r need out f, e.state = .cancelling → e.marks = some ⟨r, true⟩ → s.sends need out f → need.source = .entry e.id →
        need.kind = .cancel → f.checkPoint = true →
        exec (.deadlineEvent e.id) s = .next { s with table.entries := insertEntry { e with finalAwaited := true } others })
      ∧ (e.role = .owner → e.state = .armed → needHeld s.engine.needs .commit (.entry e.id) = true →
        (∀ need out f, s.sends need out f → need.source = .entry e.id → need.kind ≠ .commit) →
        let unarmed := e.armedSet.getD 0 &&& ~~~(e.acked.getD 0)
        let armed := s.reported (.actionArmed e.id (e.armedSet.getD 0)) s.ctl.state
        exec (.followUpDeadline e.id) s =
          .next
            { s with
              table.entries := insertEntry e others
              engine.needs := s.engine.needs.filter fun n => n.source != .entry e.id
              reports.records :=
                if unarmed = 0 then armed
                else joinQueue 32 Report.lose ⟨.commitIncomplete e.id unarmed, s.now, s.ctl.state, 0⟩ armed })
      ∧ ∀ need out f, e.role = .owner → e.state = .armed → needHeld s.engine.needs .commit (.entry e.id) = true →
        s.sends need out f → need.source = .entry e.id → need.kind = .commit →
        exec (.followUpDeadline e.id) s =
          .next { s with table.entries := insertEntry { e with finalAwaited := true } others }

/-- CAPTURE_EDGE (R50, R151 to R154): the local record of the next admitted edge, and the mark of a shared input while the MARK queue has room,
whose first mark raises the MARK need. MARK_ACCEPTED (R155, R152): a well-formed mark makes a remote record; a malformed one leaves no state and
is not acked. -/
def Obligations.CapturesAndMarksAreRecorded : Prop :=
  (∀ (s : State) (i : Channel) (edge : CaptureEdge), s.nextEdge = some (i, edge) → s.ctl.state ≠ .off →
        let unsynced := s.ctl.state == .listen || s.ctl.state == .joining || s.ctl.state == .fault
        let holdover := s.ctl.state == .holdover
        let share := s.cfg.capture[i].share
        let records (notShared : Bool) : List CaptureRecord :=
          joinQueue 16 CaptureRecord.lose ⟨.loc, i, edge, s.base.time - 80, unsynced, holdover, notShared, 0⟩ s.capture.records
        let t : State := { s with capture.edges := s.capture.edges.set i none }
        (s.ctl.state = .leaving → exec .captureEdge s = .next t)
          ∧ (s.ctl.state ≠ .leaving → share = false → exec .captureEdge s = .next { t with capture.records := records false })
          ∧ (s.ctl.state ≠ .leaving → share = true → s.ctl.state.takesPart = false ∨ 4 ≤ s.capture.marks.length →
            exec .captureEdge s = .next { t with capture.records := records true })
          ∧ (share = true → s.ctl.state.takesPart = true → s.capture.marks.length < 4 →
            exec .captureEdge s =
              .next
                { t with
                  capture.records := records false
                  capture.marks := s.capture.marks ++ [⟨i, edge, s.base.time - 80, unsynced, holdover⟩]
                  engine.needs :=
                    if s.capture.marks = [] then
                      s.engine.needs.filter (fun n => n.source != .markQueue) ++ [⟨.mark, .markQueue, s.engine.nextAge⟩]
                    else s.engine.needs
                  engine.nextAge := if s.capture.marks = [] then s.engine.nextAge + 1 else s.engine.nextAge }))
    ∧ (∀ (s : State) (o : FaultOrder) (f : Frame) (n : Station), s.accepts .mark f n → s.ctl.state.takesPart = true →
        (∀ m, decodeMark f.payload = some m →
            exec (.markAccepted o) s =
              .next
                { s.afterAcceptance f true with
                  capture.records :=
                    joinQueue 16 CaptureRecord.lose ⟨.remote n, m.input, m.edge, m.time, m.unsynced, m.holdover, false, 0⟩
                      s.capture.records })
          ∧ (decodeMark f.payload = none → exec (.markAccepted o) s = .next (s.afterAcceptance f false)))

/-- COMMON_TIME_ADVANCE (R42, R46, R119, R164) on the ending period's last state: the increment with its fraction, the pending step, and the pins
that follow. Where events of that period are still outstanding, they are taken first, in the order that is the model's choice
(notes/assumptions/6.md); where no row has an effect, nothing is taken. -/
def Obligations.TimeAdvancesAtTheBoundary : Prop :=
  (∀ b : TimeBase, -200000 ≤ b.trim → b.trim ≤ 200000 → -500000 ≤ b.slew → b.slew ≤ 500000 →
      (b.increment : Int) = 40 * (1000000000 + b.trim + b.slew))
    ∧ (∀ s : State, s.line.finding = none → s.port.ended = none →
      (∀ i ∈ [Instr.stepNotice true, .lineStuck .stateFirst, .lineQuiet, .listenTimeout, .roundStart,
          .roundClose ⟨[], .noticesDiscardMove⟩, .actionDue, .captureEdge, .access],
        exec i s = .next s) →
      (∀ c : Channel, exec (.pulseEnd c) s = .next s) →
      (∀ id : ActionId, exec (.deadlineEvent id) s = .next s ∧ exec (.followUpDeadline id) s = .next s) → settle s = s)
    ∧ ∀ (ending s : State) (pins : Pins), settle ending = s →
      let units := s.base.fraction + s.base.increment
      ∃ t, exec (.commonTimeAdvance pins) ending = .next t
        ∧ t.period = s.period + 1 ∧ t.pins = pins
        ∧ t.base.time =
          s.base.time + BitVec.ofNat 64 (if s.base.running then units / 1000000000 else 0)
            + BitVec.ofInt 64 ((s.base.pendingStep.map TimeStep.amount).getD 0)
        ∧ t.base.fraction = (if s.base.running then units % 1000000000 else s.base.fraction)
        ∧ (t.base.trim = s.base.trim ∧ t.base.slew = s.base.slew ∧ t.base.running = s.base.running)
        ∧ (t.base.pendingStep = none ∧ t.base.notice = s.base.pendingStep.map fun st => ⟨st, true⟩)
        ∧ (t.table.trigPins = s.table.outputs.map (fun o => o.high) ∧ t.table.outputs = s.table.outputs
          ∧ t.table.entries = s.table.entries)
        ∧ (t.reports.irq = (decide (s.reports.records ≠ [] ∨ s.capture.records ≠ []) && !s.resetLow)
          ∧ t.reports.records = s.reports.records)
        ∧ (t.ctl = s.ctl ∧ t.peers = s.peers ∧ t.rounds = s.rounds ∧ t.engine.needs = s.engine.needs
          ∧ t.engine.run = s.engine.run ∧ t.straps = s.straps ∧ t.inForce = s.inForce ∧ t.port.store = s.port.store
          ∧ t.port.result = s.port.result ∧ t.pending = s.pending)

/-- The readings of the period that COMMON_TIME_ADVANCE begins (R1, R42), behind the ending one and what was outstanding in it
(notes/assumptions/6.md). An edge in the period in which the quiet count would become full empties it (the model's choice,
notes/assumptions/41.md). The capture inputs:
the admitted edges and the levels (R150). The host port: its edges in their order, none while RESET_N is low (R167, R168). The line: the
driver as the pattern sets it (R2, R14), the reading with it and the other stations wired together (R1), the quiet and the stuck count and
ACTIVE at a dominant reading on a QUIET line (R6, R7). Then by phase: nothing in SETTLE; a falling edge in HUNT is a frame start (R9); in GAP a
dominant reading, or the own start, begins the next cell (R12, R14), the ninth of an own SYNC with its reference-edge time (R52), and else the
gap is counted, and found expired at its limit (R13); in CELL the bit of the period is taken (R10 to R12). In IDLE the line is not read. -/
def Obligations.BoundaryReadsTheInputs : Prop :=
  ∀ (ending s : State) (pins : Pins), settle ending = s →
    let edgeOf (i : Channel) : Option CaptureEdge :=
      match s.capture.sampled[i], pins.cap.getLsbD i.val, s.cfg.capture[i].edge with
      | some false, true, .rise => some .rise
      | some false, true, .both => some .rise
      | some true, false, .fall => some .fall
      | some true, false, .both => some .fall
      | _, _, _ => none
    let p := s.bitTime
    let b : State :=
      { s with
        period := s.period + 1
        pins := pins
        base := s.base.advance
        table.trigPins := s.table.outputs.map fun o => o.high
        table.firedNow := []
        table.firedOutputs := []
        table.expiring := []
        table.proposedNow := []
        capture.sampled :=
          if s.ctl.state = .off then s.capture.sampled
          else #v[some (pins.cap.getLsbD 0), some (pins.cap.getLsbD 1), some (pins.cap.getLsbD 2), some (pins.cap.getLsbD 3)]
        capture.edges := if s.ctl.state = .off then s.capture.edges else #v[edgeOf 0, edgeOf 1, edgeOf 2, edgeOf 3]
        reports.irq := decide (s.reports.records ≠ [] ∨ s.capture.records ≠ []) && !s.resetLow
        port :=
          if s.resetLow then { s.port with ended := none }
          else List.foldl HostPort.edge { s.port with ended := none } pins.spi }
    let patternBit (i : Nat) : Bool := (s.line.pattern.map fun pattern => pattern.getLsbD i).getD false
    let starts : Bool :=
      s.driverEnabled && s.line.phase == .gap && s.period + 1 == s.line.edge + 10 * p && patternBit 0
    let drives : Bool :=
      starts || (s.driverEnabled && s.line.phase == .cell && patternBit ((s.period + 1 - s.line.edge) / p))
    let reading : Level := if drives = true ∧ pins.driverFails = false then .dominant else pins.line
    let u : State :=
      { b with
        line.driver := drives
        line.reading := reading
        line.quietCount := if reading = .recessive then min (12 * p) (s.line.quietCount + 1) else 0
        line.stuckCount := if reading = .recessive then 0 else min (24 * p) (s.line.stuckCount + 1)
        line.condition := if reading = .dominant ∧ s.line.condition = .quiet then .active else s.line.condition
        line.finding := none }
    let next := exec (.commonTimeAdvance pins) ending
    (s.line.phase = .idle → next = .next b)
      ∧ (s.line.phase = .settle → next = .next u)
      ∧ (s.line.phase = .hunt →
        (s.line.reading = .recessive → reading = .dominant → next = .next { u with line.finding := some .frameStart })
          ∧ (s.line.reading = .dominant ∨ reading = .recessive → next = .next u))
      ∧ (s.line.phase = .cell → next = .next (readCell u))
      ∧ (s.line.phase = .gap → starts = false → reading = .recessive →
        (s.period + 1 < s.line.edge + 10 * p → next = .next u)
          ∧ (s.line.edge + 10 * p ≤ s.period + 1 →
            (s.line.gapCount + 1 < 3 * p → next = .next { u with line.gapCount := s.line.gapCount + 1 })
              ∧ (3 * p ≤ s.line.gapCount + 1 →
                next = .next { u with line.gapCount := 3 * p, line.finding := some .gapExpired })))
      ∧ (s.line.phase = .gap → starts = true ∨ reading = .dominant →
        let begun : State :=
          { u with
            line.phase := .cell
            line.edge := s.period + 1
            line.bitPos := some 0
            line.shift := []
            line.gapCount := 0 }
        ((∀ need out f, s.sends need out f → need.kind ≠ .sync ∨ f.cells.length ≠ 9) → next = .next begun)
          ∧ ∀ need out f, s.sends need out f → need.kind = .sync → f.cells.length = 9 →
            let filled := out.take 9 ++ beBytes 8 ((u.latchNow.map fun l : Latch => l.stamp).getD 0).toNat
            next =
              .next
                { begun with
                  engine.frame := some { f with role := .transmit need filled }
                  line.pattern := some (sendPattern filled 9) })

/-! ### Lists, cells and payloads -/

/-- The lists of the station: the report queue of 32 and the capture queue of 16 count a loss on their newest item (R162, R152), the due list
takes an entry in its order (R114), and a source that raises a need replaces its old one with a new age (R22). -/
def Obligations.ListsKeepTheirOrder : Prop :=
  (∀ (x : Report) (queue : List Report), queue.length < 32 → joinQueue 32 Report.lose x queue = queue ++ [x])
    ∧ (∀ (x last : Report) (older : List Report), 31 ≤ older.length →
      joinQueue 32 Report.lose x (older ++ [last]) = older ++ [{ last with loss := min 255 (last.loss + 1) }])
    ∧ (∀ (x : CaptureRecord) (queue : List CaptureRecord), queue.length < 16 → joinQueue 16 CaptureRecord.lose x queue = queue ++ [x])
    ∧ (∀ (x last : CaptureRecord) (older : List CaptureRecord), 15 ≤ older.length →
      joinQueue 16 CaptureRecord.lose x (older ++ [last]) = older ++ [{ last with loss := min 255 (last.loss + 1) }])
    ∧ (∀ (e : Entry) (entries : List Entry),
      (insertEntry e entries).Perm (e :: entries)
        ∧ (entries.Pairwise (fun a b => a.before b = true) → (∀ x ∈ entries, x.id ≠ e.id) →
          (insertEntry e entries).Pairwise fun a b => a.before b = true))
    ∧ ∀ (kind : FrameKind) (source : NeedSource) (s : State),
      (s.ctl.state ∈ [StationState.joining, .synced, .holdover] ∨ (s.ctl.state = .leaving ∧ kind = .leave) →
          raiseNeed kind source s =
            { s with
              engine.needs := s.engine.needs.filter (fun n => n.source != source) ++ [⟨kind, source, s.engine.nextAge⟩]
              engine.nextAge := s.engine.nextAge + 1 })
        ∧ (s.ctl.state ∈ [StationState.off, .listen, .fault] ∨ (s.ctl.state = .leaving ∧ kind ≠ .leave) →
          raiseNeed kind source s = s)

/-- One cell (R10 to R12, R14, R15): bit `i` is read at the period ⌊(2 i + 1) P / 2⌋ behind the edge. Bit 0 confirms the start, or is a false
start (R10). A data bit joins the byte, and under a pattern it is compared (R15): a driven bit read recessive is a driver failure (R36), a
released one of an own frame read dominant is a lost arbitration in cells 0 and 1 (R28), a collision up to cell N + 4 (R35), and in the ack
cells the ack of the station whose slot it is, the own slot apart (R31, R33). The stop bit read dominant is a stop error; else it delivers the
byte (R12). A receiver ends behind a length above 24 and behind cell N + 6, finds the acceptance instant at cell N + 4 (R29), and has its ack
slot as the pattern of ack cell 1 where its number is 8 or above (R32; its giving then and not before is the model's, notes/assumptions/22.md);
a sender has the next cell's pattern (R27, R31), its check point at cell N + 4 and its end at cell N + 6 (R33, R34). A first cell of another
kind than SYNC discards the latch (R51). -/
def Obligations.CellsCarryOneByte : Prop :=
  (∀ b : Byte, byteOfBits [b[7], b[6], b[5], b[4], b[3], b[2], b[1], b[0]] = b)
    ∧ (∀ b : Byte,
      (bytePattern b)[0] = true ∧ (bytePattern b)[9] = false
        ∧ ∀ i : Fin 8, (bytePattern b).getLsbD (i.val + 1) = !b.getLsbD (7 - i.val))
    ∧ (∀ (own : Station) (j : Nat), (slotPattern own).getLsbD j = decide (j = own.val % 8 + 1))
    ∧ (∀ (s : State) (i : Nat), s.line.bitPos = some i → s.period ≠ s.line.edge + (2 * i + 1) * s.bitTime / 2 → readCell s = s)
    ∧ (∀ s : State, s.line.bitPos = some 0 → s.period = s.line.edge + s.bitTime / 2 →
      (s.line.reading = .dominant → readCell s = { s with line.bitPos := some 1 })
        ∧ (s.line.reading = .recessive →
          readCell s =
            { s with
              line.bitPos := none
              line.finding :=
                some (.falseStart (s.driverEnabled && (s.line.pattern.map fun p => p.getLsbD 0).getD false)) }))
    ∧ (∀ (s : State) (i : Nat), s.line.bitPos = some i → s.period = s.line.edge + (2 * i + 1) * s.bitTime / 2 → 1 ≤ i → i ≤ 8 →
      let t : State := { s with line.shift := s.line.shift ++ [s.line.reading == .recessive], line.bitPos := some (i + 1) }
      let finds (x : Option Finding) : State := { t with line.finding := x }
      (s.line.pattern = none ∨ s.driverEnabled = false ∨ s.engine.frame = none → readCell s = t)
        ∧ (∀ (p : BitVec 10) (f : Frame), s.line.pattern = some p → s.driverEnabled = true → s.engine.frame = some f →
          f.role = .receive →
          (p.getLsbD i = true → s.line.reading = .recessive → readCell s = finds (some .deadBit))
            ∧ (p.getLsbD i = false ∨ s.line.reading = .dominant → readCell s = t))
        ∧ ∀ (p : BitVec 10) (need : Need) (out : List Byte) (f : Frame) (n : Nat), s.line.pattern = some p → s.driverEnabled = true →
          s.sends need out f → out.length = n + 3 →
          let k := f.cells.length
          (p.getLsbD i = true → s.line.reading = .recessive → readCell s = finds (some .deadBit))
            ∧ (p.getLsbD i = true → s.line.reading = .dominant → k < n + 5 → readCell s = finds none)
            ∧ (p.getLsbD i = false → s.line.reading = .recessive → readCell s = finds none)
            ∧ (p.getLsbD i = false → s.line.reading = .dominant → k ≤ 1 → readCell s = finds (some .lostBit))
            ∧ (p.getLsbD i = false → s.line.reading = .dominant → 2 ≤ k → k ≤ n + 4 → readCell s = finds (some .collidedBit))
            ∧ ∀ slot : Station, p.getLsbD i = false → s.line.reading = .dominant → n + 5 ≤ k →
              slot.val = 8 * (k - (n + 5)) + (i - 1) →
              readCell s =
                { finds none with
                  engine.frame :=
                    some { f with ackSet := if slot = s.own then f.ackSet else f.ackSet ||| 1#16 <<< slot.val } })
    ∧ ∀ s : State, s.line.bitPos = some 9 → s.period = s.line.edge + 19 * s.bitTime / 2 →
      (s.line.reading = .dominant → readCell s = { s with line.bitPos := none, line.finding := some .stopError })
        ∧ (s.line.reading = .recessive → s.engine.frame = none →
          readCell s =
            { s with
              line.phase := if s.line.condition = .quiet then .hunt else .settle
              line.bitPos := none
              line.shift := []
              line.gapCount := 0
              line.pattern := none
              line.finding := none })
        ∧ ∀ f : Frame, s.line.reading = .recessive → s.engine.frame = some f →
          let b := byteOfBits s.line.shift
          let k := f.cells.length
          let t : State :=
            { s with
              engine.frame :=
                some
                  { f with
                    cells := f.cells ++ [(b, s.line.edge)]
                    crc := if k < 3 ∨ k < f.length + 3 then crcByte f.crc b else f.crc }
              base.latch := if k = 0 ∧ b ≠ 0x11 then none else s.base.latch }
          let goesOn (pattern : Option (BitVec 10)) (x : Option Finding) : State :=
            { t with
              line.phase := .gap
              line.bitPos := none
              line.gapCount := 0
              line.pattern := pattern
              line.finding := x }
          let ends (x : Finding) : State := { t with line.bitPos := none, line.pattern := none, line.finding := some x }
          (f.role = .receive →
              (k ≤ 1 → readCell s = goesOn none none)
                ∧ (k = 2 → 24 < b.toNat → readCell s = ends .tooLong)
                ∧ (k = 2 → b.toNat ≤ 24 → readCell s = goesOn none none)
                ∧ (3 ≤ k → k < f.length + 4 → readCell s = goesOn none none)
                ∧ (3 ≤ k → k = f.length + 4 → readCell s = goesOn none (some .acceptance))
                ∧ (3 ≤ k → k = f.length + 5 →
                  readCell s = goesOn (if f.acks = true ∧ 8 ≤ s.own.val then some (slotPattern s.own) else none) none)
                ∧ (3 ≤ k → k = f.length + 6 → readCell s = ends .receivedDone))
            ∧ ∀ (need : Need) (out : List Byte) (n : Nat), f.role = .transmit need out → out.length = n + 3 →
              let pattern (j : Nat) : BitVec 10 :=
                if j < n + 3 then bytePattern (out.getD j 0)
                else if j = n + 3 then bytePattern ((crc16 out).extractLsb' 8 8)
                else if j = n + 4 then bytePattern ((crc16 out).extractLsb' 0 8)
                else 1#10
              (k < n + 6 → readCell s = goesOn (some (pattern (k + 1))) (if k = n + 4 then some .ownCheckDone else none))
                ∧ (k = n + 6 → readCell s = ends .ownFrameDone)

/-- The payloads of the frames (12.2, R18, R75, R131, R154): each reads back as what was put in, with every field at every value, and has its
kind's length. What a need's frame carries at its selection (R27): the kind code, the own number and the length; in a SYNC the round, the
station state, the member count and set (R75, R64); in a PROPOSE the entry's fields; in a COMMIT the required set of a COMMITTING entry, else the
armed set; in a CANCEL the sequence (R131); in a MARK the head of its queue (R154). A frame that a station builds passes the frame test of its
receivers (R17, R19, R29): the receiver that takes its cells finds the check good and reads kind, sender and payload. -/
def Obligations.FramesReadBackAtTheReceiver : Prop :=
  ((∀ (round : Nat) (sender : SenderState) (state : StationState) (count : Nat) (members : StationSet) (time : Time),
          state.code = sender.code → 1 ≤ count → count ≤ 16 →
          decodeSync (syncPayload round state count members time) = some ⟨BitVec.ofNat 16 round, sender, count, members, time⟩
            ∧ (syncPayload round state count members time).length = FrameKind.sync.length)
        ∧ (∀ m : Mark, decodeMark (markPayload m) = some m ∧ (markPayload m).length = FrameKind.mark.length)
        ∧ (∀ e : Entry,
          decodeProposePayload (proposePayload e) =
              ⟨e.output.val, e.edge.code, e.width.getD 0, e.due, e.period, e.count, e.mode.code⟩
            ∧ (proposePayload e).getD 0 0 = e.id.seq ∧ (proposePayload e).length = FrameKind.propose.length)
        ∧ ∀ (seq : BitVec 8) (set : StationSet),
          commitPayload seq set = [seq, set.extractLsb' 8 8, set.extractLsb' 0 8])
    ∧ ((∀ (s : State) (need : Need), ∀ row ∈ [(FrameKind.sync, (0x11 : Byte), (14 : Byte)), (.commit, 0x22, 3), (.cancel, 0x24, 1),
            (.propose, 0x33, 18), (.mark, 0x44, 10), (.leave, 0x5A, 0)],
          need.kind = row.1 → (frameCells need s).take 3 = [row.2.1, BitVec.ofNat 8 s.own.val, row.2.2])
        ∧ (∀ (s : State) (age : Nat) (sender : SenderState), s.ctl.state.code = sender.code → (s.peer s.own).member = false →
          (∀ n : Station, s.members.getLsbD n.val = (s.peer n).member)
            ∧ decodeSync ((frameCells ⟨.sync, .roundEngine, age⟩ s).drop 3) =
              some
                ⟨BitVec.ofNat 16 s.rounds.round, sender, 1 + allStations.countP fun n => (s.peer n).member, s.members, 0⟩)
        ∧ (∀ (s : State) (e : Entry) (age : Nat), s.entry? e.id = some e →
          let payload (kind : FrameKind) : List Byte := (frameCells ⟨kind, .entry e.id, age⟩ s).drop 3
          let set := if e.state = .committing then e.required.getD 0 else e.armedSet.getD 0
          payload .propose = proposePayload e ∧ payload .commit = [e.id.seq, set.extractLsb' 8 8, set.extractLsb' 0 8]
            ∧ payload .cancel = [e.id.seq])
        ∧ (∀ (s : State) (m : Mark) (rest : List Mark) (age : Nat), s.capture.marks = m :: rest →
          decodeMark ((frameCells ⟨.mark, .markQueue, age⟩ s).drop 3) = some m)
        ∧ ∀ (s : State) (age : Nat), (frameCells ⟨.leave, .controller, age⟩ s).drop 3 = [])
    ∧ (∀ (kind : FrameKind) (sender : Station) (payload : List Byte), payload.length = kind.length →
        let out : List Byte := kind.code :: BitVec.ofNat 8 sender.val :: BitVec.ofNat 8 kind.length :: payload
        let f := (out ++ [highByte (crc16 out), lowByte (crc16 out)]).foldl (fun f b => f.addCell b 0) (Frame.opened .receive)
        f.passes kind = some sender ∧ f.payload = payload ∧ f.cells.length = kind.length + 5)

/-! ### Invariants of every step -/

/-- Every step keeps the queues within their bounds, the pins as R2, R164 and R167 hold them, and the counts of the line within their
ranges. -/
def Obligations.StepKeepsBoundsAndPins : Prop :=
  ∀ s t : State, step s = .next t →
    (s.queuesBounded → t.queuesBounded) ∧ (s.pinsHeld → t.pinsHeld) ∧ (s.countsBounded → t.countsBounded)

/-- Every step keeps the clock's terms and the configuration store within their ranges (R41, R43, R172, R173). -/
def Obligations.StepKeepsTheClockInRange : Prop :=
  ∀ s t : State, step s = .next t → s.clockInRange → t.clockInRange

/-- Every step keeps the due list in order, without a second entry of an id, and within its places (R112 to R114). -/
def Obligations.StepKeepsTheDueList : Prop :=
  ∀ s t : State, step s = .next t → s.dueListKept → t.dueListKept

/-- Every step keeps every entry's scope, role, state, sets and tries together, the acked set within the required set, a cancel of reason
TRIES uncommitted, and its counts below its count (7.1, 8.1, R112, R116, R122, R130). -/
def Obligations.StepKeepsTheEntriesSound : Prop :=
  ∀ s t : State, step s = .next t → s.entriesSound → t.entriesSound

/-- Every step keeps the Peer Table sound (4.1, R57, R62, R72, R76). -/
def Obligations.StepKeepsThePeersSound : Prop :=
  ∀ s t : State, step s = .next t → s.peersSound → t.peersSound

/-- Every step keeps the pending-need list as R22 has it, and the blocks in what the station state leaves them. -/
def Obligations.StepKeepsNeedsAndBlocks : Prop :=
  ∀ s t : State, step s = .next t →
    (s.needsSound → t.needsSound) ∧ (s.blocksFollow → t.blocksFollow)

/-- The machine right after reset meets every invariant. -/
def Obligations.InvariantsHoldAtReset : Prop :=
  State.reset.queuesBounded ∧ State.reset.pinsHeld ∧ State.reset.countsBounded ∧ State.reset.clockInRange
    ∧ State.reset.dueListKept ∧ State.reset.entriesSound ∧ State.reset.peersSound ∧ State.reset.needsSound
    ∧ State.reset.blocksFollow
end

