-- ==== Sys2Proof/Laws/Exec.lean ====
section
/-! SUPPORT. Each row's answer: the next state that its meaning gives. -/

namespace Sys2Proof.Machine

@[simp] theorem exec_powerOnReset (pins : StrapPins) (s : State) : exec (.powerOnReset pins) s = .next (powerOn pins s) := rfl
@[simp] theorem exec_resetN (pins : StrapPins) (s : State) : exec (.resetN pins) s = .next (releaseReset pins s) := rfl
@[simp] theorem exec_badCommand (s : State) : exec .badCommand s = .next (badCommand s) := rfl
@[simp] theorem exec_nop (s : State) : exec .nop s = .next (commandNop s) := rfl
@[simp] theorem exec_configure (s : State) : exec .configure s = .next (commandConfigure s) := rfl
@[simp] theorem exec_start (s : State) : exec .start s = .next (commandStart s) := rfl
@[simp] theorem exec_stop (s : State) : exec .stop s = .next (commandStop s) := rfl
@[simp] theorem exec_leave (s : State) : exec .leave s = .next (commandLeave s) := rfl
@[simp] theorem exec_readTime (s : State) : exec .readTime s = .next (commandReadTime s) := rfl
@[simp] theorem exec_readStatus (s : State) : exec .readStatus s = .next (commandReadStatus s) := rfl
@[simp] theorem exec_readPeer (s : State) : exec .readPeer s = .next (commandReadPeer s) := rfl
@[simp] theorem exec_readAction (s : State) : exec .readAction s = .next (commandReadAction s) := rfl
@[simp] theorem exec_propose (s : State) : exec .propose s = .next (commandPropose s) := rfl
@[simp] theorem exec_schedule (s : State) : exec .schedule s = .next (commandSchedule s) := rfl
@[simp] theorem exec_cancel (s : State) : exec .cancel s = .next (commandCancel s) := rfl
@[simp] theorem exec_takeReport (s : State) : exec .takeReport s = .next (commandTakeReport s) := rfl
@[simp] theorem exec_takeCapture (s : State) : exec .takeCapture s = .next (commandTakeCapture s) := rfl
@[simp] theorem exec_lineQuiet (s : State) : exec .lineQuiet s = .next (lineQuiet s) := rfl
@[simp] theorem exec_lineStuck (order : FaultOrder) (s : State) : exec (.lineStuck order) s = .next (lineStuck order s) := rfl
@[simp] theorem exec_access (s : State) : exec .access s = .next (access s) := rfl
@[simp] theorem exec_frameStart (s : State) : exec .frameStart s = .next (frameStart s) := rfl
@[simp] theorem exec_falseStart (order : FaultOrder) (s : State) : exec (.falseStart order) s = .next (falseStart order s) := rfl
@[simp] theorem exec_stopError (order : FaultOrder) (s : State) : exec (.stopError order) s = .next (stopError order s) := rfl
@[simp] theorem exec_gapExpiry (order : FaultOrder) (s : State) : exec (.gapExpiry order) s = .next (gapExpiry order s) := rfl
@[simp] theorem exec_arbitrationLost (s : State) : exec .arbitrationLost s = .next (arbitrationLost s) := rfl
@[simp] theorem exec_collision (order : FaultOrder) (s : State) : exec (.collision order) s = .next (collision order s) := rfl
@[simp] theorem exec_driverFailure (order : FaultOrder) (s : State) : exec (.driverFailure order) s = .next (driverFailure order s) := rfl
@[simp] theorem exec_checkComplete (s : State) : exec .checkComplete s = .next (checkComplete s) := rfl
@[simp] theorem exec_frameCompleted (s : State) : exec .frameCompleted s = .next (frameCompleted s) := rfl
@[simp] theorem exec_syncAccepted (order : FaultOrder) (s : State) : exec (.syncAccepted order) s = .next (syncAccepted order s) := rfl
@[simp] theorem exec_leaveAccepted (order : FaultOrder) (s : State) : exec (.leaveAccepted order) s = .next (leaveAccepted order s) := rfl
@[simp] theorem exec_proposeAccepted (order : FaultOrder) (s : State) : exec (.proposeAccepted order) s = .next (proposeAccepted order s) := rfl
@[simp] theorem exec_commitAccepted (order : FaultOrder) (s : State) : exec (.commitAccepted order) s = .next (commitAccepted order s) := rfl
@[simp] theorem exec_cancelAccepted (order : FaultOrder) (s : State) : exec (.cancelAccepted order) s = .next (cancelAccepted order s) := rfl
@[simp] theorem exec_markAccepted (order : FaultOrder) (s : State) : exec (.markAccepted order) s = .next (markAccepted order s) := rfl
@[simp] theorem exec_listenTimeout (s : State) : exec .listenTimeout s = .next (listenTimeout s) := rfl
@[simp] theorem exec_roundStart (s : State) : exec .roundStart s = .next (roundStart s) := rfl
@[simp] theorem exec_roundClose (order : CloseOrder) (s : State) : exec (.roundClose order) s = .next (roundClose order s) := rfl
@[simp] theorem exec_stepNotice (steppedFirst : Bool) (s : State) : exec (.stepNotice steppedFirst) s = .next (stepNotice steppedFirst s) := rfl
@[simp] theorem exec_actionDue (s : State) : exec .actionDue s = .next (actionDue s) := rfl
@[simp] theorem exec_pulseEnd (output : Channel) (s : State) : exec (.pulseEnd output) s = .next (pulseEnd output s) := rfl
@[simp] theorem exec_deadlineEvent (id : ActionId) (s : State) : exec (.deadlineEvent id) s = .next (deadlineEvent id s) := rfl
@[simp] theorem exec_followUpDeadline (id : ActionId) (s : State) : exec (.followUpDeadline id) s = .next (followUpDeadline id s) := rfl
@[simp] theorem exec_captureEdge (s : State) : exec .captureEdge s = .next (captureEdge s) := rfl
@[simp] theorem exec_commonTimeAdvance (pins : Pins) (s : State) : exec (.commonTimeAdvance pins) s = .next (commonTimeAdvance pins s) := rfl
@[simp] theorem exec_resetNAsserted (s : State) : exec .resetNAsserted s = .next (assertReset s) := rfl
@[simp] theorem exec_receivedFrameEnd (s : State) : exec .receivedFrameEnd s = .next (receivedFrameEnd s) := rfl
@[simp] theorem exec_lengthAbove24 (s : State) : exec .lengthAbove24 s = .next (lengthAbove24 s) := rfl

end Sys2Proof.Machine
end

