-- ==== Sys2Proof/Laws/State.lean ====
section
/-! SUPPORT. What each shared operation leaves unchanged, field by field, and the new value of each field it changes. -/

namespace Sys2Proof.Machine

variable (s : State)

/-! ### Unchanged fields -/

section

variable (st : Status) (d : List Byte)

@[simp] theorem reply_straps : (reply st d s).straps = s.straps := rfl
@[simp] theorem reply_resetLow : (reply st d s).resetLow = s.resetLow := rfl
@[simp] theorem reply_period : (reply st d s).period = s.period := rfl
@[simp] theorem reply_pins : (reply st d s).pins = s.pins := rfl
@[simp] theorem reply_line : (reply st d s).line = s.line := rfl
@[simp] theorem reply_engine : (reply st d s).engine = s.engine := rfl
@[simp] theorem reply_base : (reply st d s).base = s.base := rfl
@[simp] theorem reply_peers : (reply st d s).peers = s.peers := rfl
@[simp] theorem reply_rounds : (reply st d s).rounds = s.rounds := rfl
@[simp] theorem reply_ctl : (reply st d s).ctl = s.ctl := rfl
@[simp] theorem reply_table : (reply st d s).table = s.table := rfl
@[simp] theorem reply_capture : (reply st d s).capture = s.capture := rfl
@[simp] theorem reply_reports : (reply st d s).reports = s.reports := rfl
@[simp] theorem reply_port_transaction : (reply st d s).port.transaction = s.port.transaction := rfl
@[simp] theorem reply_port_ended : (reply st d s).port.ended = s.port.ended := rfl
@[simp] theorem reply_port_misoPos : (reply st d s).port.misoPos = s.port.misoPos := rfl
@[simp] theorem reply_port_store : (reply st d s).port.store = s.port.store := rfl
@[simp] theorem reply_inForce : (reply st d s).inForce = s.inForce := rfl
@[simp] theorem reply_pending : (reply st d s).pending = s.pending := rfl
@[simp] theorem reply_now : (reply st d s).now = s.now := rfl
@[simp] theorem reply_own : (reply st d s).own = s.own := rfl
@[simp] theorem reply_cfg : (reply st d s).cfg = s.cfg := rfl
@[simp] theorem reply_bitTime : (reply st d s).bitTime = s.bitTime := rfl
@[simp] theorem reply_members : (reply st d s).members = s.members := rfl
@[simp] theorem reply_driverEnabled : (reply st d s).driverEnabled = s.driverEnabled := rfl
@[simp] theorem reply_noticeDue : (reply st d s).noticeDue = s.noticeDue := rfl
@[simp] theorem reply_peer (n : Station) : (reply st d s).peer n = s.peer n := rfl
@[simp] theorem reply_output (c : Channel) : (reply st d s).output c = s.output c := rfl
@[simp] theorem reply_entry (i : ActionId) : (reply st d s).entry? i = s.entry? i := rfl

end

@[simp] theorem clearEnded_straps : (clearEnded s).straps = s.straps := rfl
@[simp] theorem clearEnded_resetLow : (clearEnded s).resetLow = s.resetLow := rfl
@[simp] theorem clearEnded_period : (clearEnded s).period = s.period := rfl
@[simp] theorem clearEnded_pins : (clearEnded s).pins = s.pins := rfl
@[simp] theorem clearEnded_line : (clearEnded s).line = s.line := rfl
@[simp] theorem clearEnded_engine : (clearEnded s).engine = s.engine := rfl
@[simp] theorem clearEnded_base : (clearEnded s).base = s.base := rfl
@[simp] theorem clearEnded_peers : (clearEnded s).peers = s.peers := rfl
@[simp] theorem clearEnded_rounds : (clearEnded s).rounds = s.rounds := rfl
@[simp] theorem clearEnded_ctl : (clearEnded s).ctl = s.ctl := rfl
@[simp] theorem clearEnded_table : (clearEnded s).table = s.table := rfl
@[simp] theorem clearEnded_capture : (clearEnded s).capture = s.capture := rfl
@[simp] theorem clearEnded_reports : (clearEnded s).reports = s.reports := rfl
@[simp] theorem clearEnded_port_transaction : (clearEnded s).port.transaction = s.port.transaction := rfl
@[simp] theorem clearEnded_port_misoPos : (clearEnded s).port.misoPos = s.port.misoPos := rfl
@[simp] theorem clearEnded_port_result : (clearEnded s).port.result = s.port.result := rfl
@[simp] theorem clearEnded_port_store : (clearEnded s).port.store = s.port.store := rfl
@[simp] theorem clearEnded_inForce : (clearEnded s).inForce = s.inForce := rfl
@[simp] theorem clearEnded_pending : (clearEnded s).pending = s.pending := rfl
@[simp] theorem clearEnded_now : (clearEnded s).now = s.now := rfl
@[simp] theorem clearEnded_own : (clearEnded s).own = s.own := rfl
@[simp] theorem clearEnded_cfg : (clearEnded s).cfg = s.cfg := rfl
@[simp] theorem clearEnded_bitTime : (clearEnded s).bitTime = s.bitTime := rfl
@[simp] theorem clearEnded_members : (clearEnded s).members = s.members := rfl
@[simp] theorem clearEnded_driverEnabled : (clearEnded s).driverEnabled = s.driverEnabled := rfl
@[simp] theorem clearEnded_noticeDue : (clearEnded s).noticeDue = s.noticeDue := rfl
@[simp] theorem clearEnded_peer (n : Station) : (clearEnded s).peer n = s.peer n := rfl
@[simp] theorem clearEnded_output (c : Channel) : (clearEnded s).output c = s.output c := rfl
@[simp] theorem clearEnded_entry (i : ActionId) : (clearEnded s).entry? i = s.entry? i := rfl

section

variable (k : ReportKind)

@[simp] theorem queueReport_straps : (queueReport k s).straps = s.straps := rfl
@[simp] theorem queueReport_resetLow : (queueReport k s).resetLow = s.resetLow := rfl
@[simp] theorem queueReport_period : (queueReport k s).period = s.period := rfl
@[simp] theorem queueReport_pins : (queueReport k s).pins = s.pins := rfl
@[simp] theorem queueReport_line : (queueReport k s).line = s.line := rfl
@[simp] theorem queueReport_engine : (queueReport k s).engine = s.engine := rfl
@[simp] theorem queueReport_base : (queueReport k s).base = s.base := rfl
@[simp] theorem queueReport_peers : (queueReport k s).peers = s.peers := rfl
@[simp] theorem queueReport_rounds : (queueReport k s).rounds = s.rounds := rfl
@[simp] theorem queueReport_ctl : (queueReport k s).ctl = s.ctl := rfl
@[simp] theorem queueReport_table : (queueReport k s).table = s.table := rfl
@[simp] theorem queueReport_capture : (queueReport k s).capture = s.capture := rfl
@[simp] theorem queueReport_reports_irq : (queueReport k s).reports.irq = s.reports.irq := rfl
@[simp] theorem queueReport_port : (queueReport k s).port = s.port := rfl
@[simp] theorem queueReport_inForce : (queueReport k s).inForce = s.inForce := rfl
@[simp] theorem queueReport_pending : (queueReport k s).pending = s.pending := rfl
@[simp] theorem queueReport_now : (queueReport k s).now = s.now := rfl
@[simp] theorem queueReport_own : (queueReport k s).own = s.own := rfl
@[simp] theorem queueReport_cfg : (queueReport k s).cfg = s.cfg := rfl
@[simp] theorem queueReport_bitTime : (queueReport k s).bitTime = s.bitTime := rfl
@[simp] theorem queueReport_members : (queueReport k s).members = s.members := rfl
@[simp] theorem queueReport_driverEnabled : (queueReport k s).driverEnabled = s.driverEnabled := rfl
@[simp] theorem queueReport_noticeDue : (queueReport k s).noticeDue = s.noticeDue := rfl
@[simp] theorem queueReport_peer (n : Station) : (queueReport k s).peer n = s.peer n := rfl
@[simp] theorem queueReport_output (c : Channel) : (queueReport k s).output c = s.output c := rfl
@[simp] theorem queueReport_entry (i : ActionId) : (queueReport k s).entry? i = s.entry? i := rfl

end

section

variable (new : StationState) (cause : MoveCause)

@[simp] theorem moveState_straps : (moveState new cause s).straps = s.straps := rfl
@[simp] theorem moveState_resetLow : (moveState new cause s).resetLow = s.resetLow := rfl
@[simp] theorem moveState_period : (moveState new cause s).period = s.period := rfl
@[simp] theorem moveState_pins : (moveState new cause s).pins = s.pins := rfl
@[simp] theorem moveState_line : (moveState new cause s).line = s.line := rfl
@[simp] theorem moveState_engine : (moveState new cause s).engine = s.engine := rfl
@[simp] theorem moveState_base : (moveState new cause s).base = s.base := rfl
@[simp] theorem moveState_peers : (moveState new cause s).peers = s.peers := rfl
@[simp] theorem moveState_rounds : (moveState new cause s).rounds = s.rounds := rfl
@[simp] theorem moveState_ctl_faultCause : (moveState new cause s).ctl.faultCause = s.ctl.faultCause := rfl
@[simp] theorem moveState_ctl_listenTimer : (moveState new cause s).ctl.listenTimer = s.ctl.listenTimer := rfl
@[simp] theorem moveState_ctl_leaveFailures : (moveState new cause s).ctl.leaveFailures = s.ctl.leaveFailures := rfl
@[simp] theorem moveState_ctl_seq : (moveState new cause s).ctl.seq = s.ctl.seq := rfl
@[simp] theorem moveState_table : (moveState new cause s).table = s.table := rfl
@[simp] theorem moveState_capture : (moveState new cause s).capture = s.capture := rfl
@[simp] theorem moveState_reports_irq : (moveState new cause s).reports.irq = s.reports.irq := rfl
@[simp] theorem moveState_port : (moveState new cause s).port = s.port := rfl
@[simp] theorem moveState_inForce : (moveState new cause s).inForce = s.inForce := rfl
@[simp] theorem moveState_pending : (moveState new cause s).pending = s.pending := rfl
@[simp] theorem moveState_now : (moveState new cause s).now = s.now := rfl
@[simp] theorem moveState_own : (moveState new cause s).own = s.own := rfl
@[simp] theorem moveState_cfg : (moveState new cause s).cfg = s.cfg := rfl
@[simp] theorem moveState_bitTime : (moveState new cause s).bitTime = s.bitTime := rfl
@[simp] theorem moveState_members : (moveState new cause s).members = s.members := rfl
@[simp] theorem moveState_noticeDue : (moveState new cause s).noticeDue = s.noticeDue := rfl
@[simp] theorem moveState_peer (n : Station) : (moveState new cause s).peer n = s.peer n := rfl
@[simp] theorem moveState_output (c : Channel) : (moveState new cause s).output c = s.output c := rfl
@[simp] theorem moveState_entry (i : ActionId) : (moveState new cause s).entry? i = s.entry? i := rfl

end

section

variable (src : NeedSource)

@[simp] theorem withdrawNeed_straps : (withdrawNeed src s).straps = s.straps := rfl
@[simp] theorem withdrawNeed_resetLow : (withdrawNeed src s).resetLow = s.resetLow := rfl
@[simp] theorem withdrawNeed_period : (withdrawNeed src s).period = s.period := rfl
@[simp] theorem withdrawNeed_pins : (withdrawNeed src s).pins = s.pins := rfl
@[simp] theorem withdrawNeed_line : (withdrawNeed src s).line = s.line := rfl
@[simp] theorem withdrawNeed_engine_nextAge : (withdrawNeed src s).engine.nextAge = s.engine.nextAge := rfl
@[simp] theorem withdrawNeed_engine_frame : (withdrawNeed src s).engine.frame = s.engine.frame := rfl
@[simp] theorem withdrawNeed_engine_run : (withdrawNeed src s).engine.run = s.engine.run := rfl
@[simp] theorem withdrawNeed_base : (withdrawNeed src s).base = s.base := rfl
@[simp] theorem withdrawNeed_peers : (withdrawNeed src s).peers = s.peers := rfl
@[simp] theorem withdrawNeed_rounds : (withdrawNeed src s).rounds = s.rounds := rfl
@[simp] theorem withdrawNeed_ctl : (withdrawNeed src s).ctl = s.ctl := rfl
@[simp] theorem withdrawNeed_table : (withdrawNeed src s).table = s.table := rfl
@[simp] theorem withdrawNeed_capture : (withdrawNeed src s).capture = s.capture := rfl
@[simp] theorem withdrawNeed_reports : (withdrawNeed src s).reports = s.reports := rfl
@[simp] theorem withdrawNeed_port : (withdrawNeed src s).port = s.port := rfl
@[simp] theorem withdrawNeed_inForce : (withdrawNeed src s).inForce = s.inForce := rfl
@[simp] theorem withdrawNeed_pending : (withdrawNeed src s).pending = s.pending := rfl
@[simp] theorem withdrawNeed_now : (withdrawNeed src s).now = s.now := rfl
@[simp] theorem withdrawNeed_own : (withdrawNeed src s).own = s.own := rfl
@[simp] theorem withdrawNeed_cfg : (withdrawNeed src s).cfg = s.cfg := rfl
@[simp] theorem withdrawNeed_bitTime : (withdrawNeed src s).bitTime = s.bitTime := rfl
@[simp] theorem withdrawNeed_members : (withdrawNeed src s).members = s.members := rfl
@[simp] theorem withdrawNeed_driverEnabled : (withdrawNeed src s).driverEnabled = s.driverEnabled := rfl
@[simp] theorem withdrawNeed_noticeDue : (withdrawNeed src s).noticeDue = s.noticeDue := rfl
@[simp] theorem withdrawNeed_peer (n : Station) : (withdrawNeed src s).peer n = s.peer n := rfl
@[simp] theorem withdrawNeed_output (c : Channel) : (withdrawNeed src s).output c = s.output c := rfl
@[simp] theorem withdrawNeed_entry (i : ActionId) : (withdrawNeed src s).entry? i = s.entry? i := rfl

end

section

variable (need : Need)

@[simp] theorem removeNeed_straps : (removeNeed need s).straps = s.straps := rfl
@[simp] theorem removeNeed_resetLow : (removeNeed need s).resetLow = s.resetLow := rfl
@[simp] theorem removeNeed_period : (removeNeed need s).period = s.period := rfl
@[simp] theorem removeNeed_pins : (removeNeed need s).pins = s.pins := rfl
@[simp] theorem removeNeed_line : (removeNeed need s).line = s.line := rfl
@[simp] theorem removeNeed_engine_nextAge : (removeNeed need s).engine.nextAge = s.engine.nextAge := rfl
@[simp] theorem removeNeed_engine_frame : (removeNeed need s).engine.frame = s.engine.frame := rfl
@[simp] theorem removeNeed_engine_run : (removeNeed need s).engine.run = s.engine.run := rfl
@[simp] theorem removeNeed_base : (removeNeed need s).base = s.base := rfl
@[simp] theorem removeNeed_peers : (removeNeed need s).peers = s.peers := rfl
@[simp] theorem removeNeed_rounds : (removeNeed need s).rounds = s.rounds := rfl
@[simp] theorem removeNeed_ctl : (removeNeed need s).ctl = s.ctl := rfl
@[simp] theorem removeNeed_table : (removeNeed need s).table = s.table := rfl
@[simp] theorem removeNeed_capture : (removeNeed need s).capture = s.capture := rfl
@[simp] theorem removeNeed_reports : (removeNeed need s).reports = s.reports := rfl
@[simp] theorem removeNeed_port : (removeNeed need s).port = s.port := rfl
@[simp] theorem removeNeed_inForce : (removeNeed need s).inForce = s.inForce := rfl
@[simp] theorem removeNeed_pending : (removeNeed need s).pending = s.pending := rfl
@[simp] theorem removeNeed_now : (removeNeed need s).now = s.now := rfl
@[simp] theorem removeNeed_own : (removeNeed need s).own = s.own := rfl
@[simp] theorem removeNeed_cfg : (removeNeed need s).cfg = s.cfg := rfl
@[simp] theorem removeNeed_bitTime : (removeNeed need s).bitTime = s.bitTime := rfl
@[simp] theorem removeNeed_members : (removeNeed need s).members = s.members := rfl
@[simp] theorem removeNeed_driverEnabled : (removeNeed need s).driverEnabled = s.driverEnabled := rfl
@[simp] theorem removeNeed_noticeDue : (removeNeed need s).noticeDue = s.noticeDue := rfl
@[simp] theorem removeNeed_peer (n : Station) : (removeNeed need s).peer n = s.peer n := rfl
@[simp] theorem removeNeed_output (c : Channel) : (removeNeed need s).output c = s.output c := rfl
@[simp] theorem removeNeed_entry (i : ActionId) : (removeNeed need s).entry? i = s.entry? i := rfl

end

@[simp] theorem releaseDriver_straps : (releaseDriver s).straps = s.straps := rfl
@[simp] theorem releaseDriver_resetLow : (releaseDriver s).resetLow = s.resetLow := rfl
@[simp] theorem releaseDriver_period : (releaseDriver s).period = s.period := rfl
@[simp] theorem releaseDriver_pins : (releaseDriver s).pins = s.pins := rfl
@[simp] theorem releaseDriver_line_condition : (releaseDriver s).line.condition = s.line.condition := rfl
@[simp] theorem releaseDriver_line_quietCount : (releaseDriver s).line.quietCount = s.line.quietCount := rfl
@[simp] theorem releaseDriver_line_stuckCount : (releaseDriver s).line.stuckCount = s.line.stuckCount := rfl
@[simp] theorem releaseDriver_line_phase : (releaseDriver s).line.phase = s.line.phase := rfl
@[simp] theorem releaseDriver_line_edge : (releaseDriver s).line.edge = s.line.edge := rfl
@[simp] theorem releaseDriver_line_bitPos : (releaseDriver s).line.bitPos = s.line.bitPos := rfl
@[simp] theorem releaseDriver_line_shift : (releaseDriver s).line.shift = s.line.shift := rfl
@[simp] theorem releaseDriver_line_gapCount : (releaseDriver s).line.gapCount = s.line.gapCount := rfl
@[simp] theorem releaseDriver_line_reading : (releaseDriver s).line.reading = s.line.reading := rfl
@[simp] theorem releaseDriver_line_finding : (releaseDriver s).line.finding = s.line.finding := rfl
@[simp] theorem releaseDriver_engine : (releaseDriver s).engine = s.engine := rfl
@[simp] theorem releaseDriver_base : (releaseDriver s).base = s.base := rfl
@[simp] theorem releaseDriver_peers : (releaseDriver s).peers = s.peers := rfl
@[simp] theorem releaseDriver_rounds : (releaseDriver s).rounds = s.rounds := rfl
@[simp] theorem releaseDriver_ctl : (releaseDriver s).ctl = s.ctl := rfl
@[simp] theorem releaseDriver_table : (releaseDriver s).table = s.table := rfl
@[simp] theorem releaseDriver_capture : (releaseDriver s).capture = s.capture := rfl
@[simp] theorem releaseDriver_reports : (releaseDriver s).reports = s.reports := rfl
@[simp] theorem releaseDriver_port : (releaseDriver s).port = s.port := rfl
@[simp] theorem releaseDriver_inForce : (releaseDriver s).inForce = s.inForce := rfl
@[simp] theorem releaseDriver_pending : (releaseDriver s).pending = s.pending := rfl
@[simp] theorem releaseDriver_now : (releaseDriver s).now = s.now := rfl
@[simp] theorem releaseDriver_own : (releaseDriver s).own = s.own := rfl
@[simp] theorem releaseDriver_cfg : (releaseDriver s).cfg = s.cfg := rfl
@[simp] theorem releaseDriver_bitTime : (releaseDriver s).bitTime = s.bitTime := rfl
@[simp] theorem releaseDriver_members : (releaseDriver s).members = s.members := rfl
@[simp] theorem releaseDriver_driverEnabled : (releaseDriver s).driverEnabled = s.driverEnabled := rfl
@[simp] theorem releaseDriver_noticeDue : (releaseDriver s).noticeDue = s.noticeDue := rfl
@[simp] theorem releaseDriver_peer (n : Station) : (releaseDriver s).peer n = s.peer n := rfl
@[simp] theorem releaseDriver_output (c : Channel) : (releaseDriver s).output c = s.output c := rfl
@[simp] theorem releaseDriver_entry (i : ActionId) : (releaseDriver s).entry? i = s.entry? i := rfl

@[simp] theorem releaseOrder_straps : (releaseOrder s).straps = s.straps := rfl
@[simp] theorem releaseOrder_resetLow : (releaseOrder s).resetLow = s.resetLow := rfl
@[simp] theorem releaseOrder_period : (releaseOrder s).period = s.period := rfl
@[simp] theorem releaseOrder_pins : (releaseOrder s).pins = s.pins := rfl
@[simp] theorem releaseOrder_line_condition : (releaseOrder s).line.condition = s.line.condition := rfl
@[simp] theorem releaseOrder_line_quietCount : (releaseOrder s).line.quietCount = s.line.quietCount := rfl
@[simp] theorem releaseOrder_line_stuckCount : (releaseOrder s).line.stuckCount = s.line.stuckCount := rfl
@[simp] theorem releaseOrder_line_phase : (releaseOrder s).line.phase = s.line.phase := rfl
@[simp] theorem releaseOrder_line_edge : (releaseOrder s).line.edge = s.line.edge := rfl
@[simp] theorem releaseOrder_line_bitPos : (releaseOrder s).line.bitPos = s.line.bitPos := rfl
@[simp] theorem releaseOrder_line_shift : (releaseOrder s).line.shift = s.line.shift := rfl
@[simp] theorem releaseOrder_line_gapCount : (releaseOrder s).line.gapCount = s.line.gapCount := rfl
@[simp] theorem releaseOrder_line_driver : (releaseOrder s).line.driver = s.line.driver := rfl
@[simp] theorem releaseOrder_line_reading : (releaseOrder s).line.reading = s.line.reading := rfl
@[simp] theorem releaseOrder_line_finding : (releaseOrder s).line.finding = s.line.finding := rfl
@[simp] theorem releaseOrder_engine : (releaseOrder s).engine = s.engine := rfl
@[simp] theorem releaseOrder_base : (releaseOrder s).base = s.base := rfl
@[simp] theorem releaseOrder_peers : (releaseOrder s).peers = s.peers := rfl
@[simp] theorem releaseOrder_rounds : (releaseOrder s).rounds = s.rounds := rfl
@[simp] theorem releaseOrder_ctl : (releaseOrder s).ctl = s.ctl := rfl
@[simp] theorem releaseOrder_table : (releaseOrder s).table = s.table := rfl
@[simp] theorem releaseOrder_capture : (releaseOrder s).capture = s.capture := rfl
@[simp] theorem releaseOrder_reports : (releaseOrder s).reports = s.reports := rfl
@[simp] theorem releaseOrder_port : (releaseOrder s).port = s.port := rfl
@[simp] theorem releaseOrder_inForce : (releaseOrder s).inForce = s.inForce := rfl
@[simp] theorem releaseOrder_pending : (releaseOrder s).pending = s.pending := rfl
@[simp] theorem releaseOrder_now : (releaseOrder s).now = s.now := rfl
@[simp] theorem releaseOrder_own : (releaseOrder s).own = s.own := rfl
@[simp] theorem releaseOrder_cfg : (releaseOrder s).cfg = s.cfg := rfl
@[simp] theorem releaseOrder_bitTime : (releaseOrder s).bitTime = s.bitTime := rfl
@[simp] theorem releaseOrder_members : (releaseOrder s).members = s.members := rfl
@[simp] theorem releaseOrder_driverEnabled : (releaseOrder s).driverEnabled = s.driverEnabled := rfl
@[simp] theorem releaseOrder_noticeDue : (releaseOrder s).noticeDue = s.noticeDue := rfl
@[simp] theorem releaseOrder_peer (n : Station) : (releaseOrder s).peer n = s.peer n := rfl
@[simp] theorem releaseOrder_output (c : Channel) : (releaseOrder s).output c = s.output c := rfl
@[simp] theorem releaseOrder_entry (i : ActionId) : (releaseOrder s).entry? i = s.entry? i := rfl

@[simp] theorem endFrame_straps : (endFrame s).straps = s.straps := rfl
@[simp] theorem endFrame_resetLow : (endFrame s).resetLow = s.resetLow := rfl
@[simp] theorem endFrame_period : (endFrame s).period = s.period := rfl
@[simp] theorem endFrame_pins : (endFrame s).pins = s.pins := rfl
@[simp] theorem endFrame_line_condition : (endFrame s).line.condition = s.line.condition := rfl
@[simp] theorem endFrame_line_quietCount : (endFrame s).line.quietCount = s.line.quietCount := rfl
@[simp] theorem endFrame_line_stuckCount : (endFrame s).line.stuckCount = s.line.stuckCount := rfl
@[simp] theorem endFrame_line_edge : (endFrame s).line.edge = s.line.edge := rfl
@[simp] theorem endFrame_line_driver : (endFrame s).line.driver = s.line.driver := rfl
@[simp] theorem endFrame_line_reading : (endFrame s).line.reading = s.line.reading := rfl
@[simp] theorem endFrame_engine_needs : (endFrame s).engine.needs = s.engine.needs := rfl
@[simp] theorem endFrame_engine_nextAge : (endFrame s).engine.nextAge = s.engine.nextAge := rfl
@[simp] theorem endFrame_engine_run : (endFrame s).engine.run = s.engine.run := rfl
@[simp] theorem endFrame_base_time : (endFrame s).base.time = s.base.time := rfl
@[simp] theorem endFrame_base_fraction : (endFrame s).base.fraction = s.base.fraction := rfl
@[simp] theorem endFrame_base_trim : (endFrame s).base.trim = s.base.trim := rfl
@[simp] theorem endFrame_base_slew : (endFrame s).base.slew = s.base.slew := rfl
@[simp] theorem endFrame_base_running : (endFrame s).base.running = s.base.running := rfl
@[simp] theorem endFrame_base_pendingStep : (endFrame s).base.pendingStep = s.base.pendingStep := rfl
@[simp] theorem endFrame_base_notice : (endFrame s).base.notice = s.base.notice := rfl
@[simp] theorem endFrame_peers : (endFrame s).peers = s.peers := rfl
@[simp] theorem endFrame_rounds : (endFrame s).rounds = s.rounds := rfl
@[simp] theorem endFrame_ctl : (endFrame s).ctl = s.ctl := rfl
@[simp] theorem endFrame_table : (endFrame s).table = s.table := rfl
@[simp] theorem endFrame_capture : (endFrame s).capture = s.capture := rfl
@[simp] theorem endFrame_reports : (endFrame s).reports = s.reports := rfl
@[simp] theorem endFrame_port : (endFrame s).port = s.port := rfl
@[simp] theorem endFrame_inForce : (endFrame s).inForce = s.inForce := rfl
@[simp] theorem endFrame_pending : (endFrame s).pending = s.pending := rfl
@[simp] theorem endFrame_now : (endFrame s).now = s.now := rfl
@[simp] theorem endFrame_own : (endFrame s).own = s.own := rfl
@[simp] theorem endFrame_cfg : (endFrame s).cfg = s.cfg := rfl
@[simp] theorem endFrame_bitTime : (endFrame s).bitTime = s.bitTime := rfl
@[simp] theorem endFrame_members : (endFrame s).members = s.members := rfl
@[simp] theorem endFrame_driverEnabled : (endFrame s).driverEnabled = s.driverEnabled := rfl
@[simp] theorem endFrame_noticeDue : (endFrame s).noticeDue = s.noticeDue := rfl
@[simp] theorem endFrame_peer (n : Station) : (endFrame s).peer n = s.peer n := rfl
@[simp] theorem endFrame_output (c : Channel) : (endFrame s).output c = s.output c := rfl
@[simp] theorem endFrame_entry (i : ActionId) : (endFrame s).entry? i = s.entry? i := rfl

@[simp] theorem clearFinding_straps : (clearFinding s).straps = s.straps := rfl
@[simp] theorem clearFinding_resetLow : (clearFinding s).resetLow = s.resetLow := rfl
@[simp] theorem clearFinding_period : (clearFinding s).period = s.period := rfl
@[simp] theorem clearFinding_pins : (clearFinding s).pins = s.pins := rfl
@[simp] theorem clearFinding_line_condition : (clearFinding s).line.condition = s.line.condition := rfl
@[simp] theorem clearFinding_line_quietCount : (clearFinding s).line.quietCount = s.line.quietCount := rfl
@[simp] theorem clearFinding_line_stuckCount : (clearFinding s).line.stuckCount = s.line.stuckCount := rfl
@[simp] theorem clearFinding_line_phase : (clearFinding s).line.phase = s.line.phase := rfl
@[simp] theorem clearFinding_line_edge : (clearFinding s).line.edge = s.line.edge := rfl
@[simp] theorem clearFinding_line_bitPos : (clearFinding s).line.bitPos = s.line.bitPos := rfl
@[simp] theorem clearFinding_line_shift : (clearFinding s).line.shift = s.line.shift := rfl
@[simp] theorem clearFinding_line_gapCount : (clearFinding s).line.gapCount = s.line.gapCount := rfl
@[simp] theorem clearFinding_line_pattern : (clearFinding s).line.pattern = s.line.pattern := rfl
@[simp] theorem clearFinding_line_driver : (clearFinding s).line.driver = s.line.driver := rfl
@[simp] theorem clearFinding_line_reading : (clearFinding s).line.reading = s.line.reading := rfl
@[simp] theorem clearFinding_engine : (clearFinding s).engine = s.engine := rfl
@[simp] theorem clearFinding_base : (clearFinding s).base = s.base := rfl
@[simp] theorem clearFinding_peers : (clearFinding s).peers = s.peers := rfl
@[simp] theorem clearFinding_rounds : (clearFinding s).rounds = s.rounds := rfl
@[simp] theorem clearFinding_ctl : (clearFinding s).ctl = s.ctl := rfl
@[simp] theorem clearFinding_table : (clearFinding s).table = s.table := rfl
@[simp] theorem clearFinding_capture : (clearFinding s).capture = s.capture := rfl
@[simp] theorem clearFinding_reports : (clearFinding s).reports = s.reports := rfl
@[simp] theorem clearFinding_port : (clearFinding s).port = s.port := rfl
@[simp] theorem clearFinding_inForce : (clearFinding s).inForce = s.inForce := rfl
@[simp] theorem clearFinding_pending : (clearFinding s).pending = s.pending := rfl
@[simp] theorem clearFinding_now : (clearFinding s).now = s.now := rfl
@[simp] theorem clearFinding_own : (clearFinding s).own = s.own := rfl
@[simp] theorem clearFinding_cfg : (clearFinding s).cfg = s.cfg := rfl
@[simp] theorem clearFinding_bitTime : (clearFinding s).bitTime = s.bitTime := rfl
@[simp] theorem clearFinding_members : (clearFinding s).members = s.members := rfl
@[simp] theorem clearFinding_driverEnabled : (clearFinding s).driverEnabled = s.driverEnabled := rfl
@[simp] theorem clearFinding_noticeDue : (clearFinding s).noticeDue = s.noticeDue := rfl
@[simp] theorem clearFinding_peer (n : Station) : (clearFinding s).peer n = s.peer n := rfl
@[simp] theorem clearFinding_output (c : Channel) : (clearFinding s).output c = s.output c := rfl
@[simp] theorem clearFinding_entry (i : ActionId) : (clearFinding s).entry? i = s.entry? i := rfl

@[simp] theorem giveUpSending_straps : (giveUpSending s).straps = s.straps := rfl
@[simp] theorem giveUpSending_resetLow : (giveUpSending s).resetLow = s.resetLow := rfl
@[simp] theorem giveUpSending_period : (giveUpSending s).period = s.period := rfl
@[simp] theorem giveUpSending_pins : (giveUpSending s).pins = s.pins := rfl
@[simp] theorem giveUpSending_line_condition : (giveUpSending s).line.condition = s.line.condition := rfl
@[simp] theorem giveUpSending_line_quietCount : (giveUpSending s).line.quietCount = s.line.quietCount := rfl
@[simp] theorem giveUpSending_line_stuckCount : (giveUpSending s).line.stuckCount = s.line.stuckCount := rfl
@[simp] theorem giveUpSending_line_phase : (giveUpSending s).line.phase = s.line.phase := rfl
@[simp] theorem giveUpSending_line_edge : (giveUpSending s).line.edge = s.line.edge := rfl
@[simp] theorem giveUpSending_line_bitPos : (giveUpSending s).line.bitPos = s.line.bitPos := rfl
@[simp] theorem giveUpSending_line_shift : (giveUpSending s).line.shift = s.line.shift := rfl
@[simp] theorem giveUpSending_line_gapCount : (giveUpSending s).line.gapCount = s.line.gapCount := rfl
@[simp] theorem giveUpSending_line_driver : (giveUpSending s).line.driver = s.line.driver := rfl
@[simp] theorem giveUpSending_line_reading : (giveUpSending s).line.reading = s.line.reading := rfl
@[simp] theorem giveUpSending_engine_needs : (giveUpSending s).engine.needs = s.engine.needs := rfl
@[simp] theorem giveUpSending_engine_nextAge : (giveUpSending s).engine.nextAge = s.engine.nextAge := rfl
@[simp] theorem giveUpSending_engine_run : (giveUpSending s).engine.run = s.engine.run := rfl
@[simp] theorem giveUpSending_base : (giveUpSending s).base = s.base := rfl
@[simp] theorem giveUpSending_peers : (giveUpSending s).peers = s.peers := rfl
@[simp] theorem giveUpSending_rounds : (giveUpSending s).rounds = s.rounds := rfl
@[simp] theorem giveUpSending_ctl : (giveUpSending s).ctl = s.ctl := rfl
@[simp] theorem giveUpSending_table : (giveUpSending s).table = s.table := rfl
@[simp] theorem giveUpSending_capture : (giveUpSending s).capture = s.capture := rfl
@[simp] theorem giveUpSending_reports : (giveUpSending s).reports = s.reports := rfl
@[simp] theorem giveUpSending_port : (giveUpSending s).port = s.port := rfl
@[simp] theorem giveUpSending_inForce : (giveUpSending s).inForce = s.inForce := rfl
@[simp] theorem giveUpSending_pending : (giveUpSending s).pending = s.pending := rfl
@[simp] theorem giveUpSending_now : (giveUpSending s).now = s.now := rfl
@[simp] theorem giveUpSending_own : (giveUpSending s).own = s.own := rfl
@[simp] theorem giveUpSending_cfg : (giveUpSending s).cfg = s.cfg := rfl
@[simp] theorem giveUpSending_bitTime : (giveUpSending s).bitTime = s.bitTime := rfl
@[simp] theorem giveUpSending_members : (giveUpSending s).members = s.members := rfl
@[simp] theorem giveUpSending_driverEnabled : (giveUpSending s).driverEnabled = s.driverEnabled := rfl
@[simp] theorem giveUpSending_noticeDue : (giveUpSending s).noticeDue = s.noticeDue := rfl
@[simp] theorem giveUpSending_peer (n : Station) : (giveUpSending s).peer n = s.peer n := rfl
@[simp] theorem giveUpSending_output (c : Channel) : (giveUpSending s).output c = s.output c := rfl
@[simp] theorem giveUpSending_entry (i : ActionId) : (giveUpSending s).entry? i = s.entry? i := rfl

section

variable (e : Entry)

@[simp] theorem putEntry_straps : (putEntry e s).straps = s.straps := rfl
@[simp] theorem putEntry_resetLow : (putEntry e s).resetLow = s.resetLow := rfl
@[simp] theorem putEntry_period : (putEntry e s).period = s.period := rfl
@[simp] theorem putEntry_pins : (putEntry e s).pins = s.pins := rfl
@[simp] theorem putEntry_line : (putEntry e s).line = s.line := rfl
@[simp] theorem putEntry_engine : (putEntry e s).engine = s.engine := rfl
@[simp] theorem putEntry_base : (putEntry e s).base = s.base := rfl
@[simp] theorem putEntry_peers : (putEntry e s).peers = s.peers := rfl
@[simp] theorem putEntry_rounds : (putEntry e s).rounds = s.rounds := rfl
@[simp] theorem putEntry_ctl : (putEntry e s).ctl = s.ctl := rfl
@[simp] theorem putEntry_table_outputs : (putEntry e s).table.outputs = s.table.outputs := rfl
@[simp] theorem putEntry_table_trigPins : (putEntry e s).table.trigPins = s.table.trigPins := rfl
@[simp] theorem putEntry_table_firedNow : (putEntry e s).table.firedNow = s.table.firedNow := rfl
@[simp] theorem putEntry_table_firedOutputs : (putEntry e s).table.firedOutputs = s.table.firedOutputs := rfl
@[simp] theorem putEntry_table_expiring : (putEntry e s).table.expiring = s.table.expiring := rfl
@[simp] theorem putEntry_table_proposedNow : (putEntry e s).table.proposedNow = s.table.proposedNow := rfl
@[simp] theorem putEntry_capture : (putEntry e s).capture = s.capture := rfl
@[simp] theorem putEntry_reports : (putEntry e s).reports = s.reports := rfl
@[simp] theorem putEntry_port : (putEntry e s).port = s.port := rfl
@[simp] theorem putEntry_inForce : (putEntry e s).inForce = s.inForce := rfl
@[simp] theorem putEntry_pending : (putEntry e s).pending = s.pending := rfl
@[simp] theorem putEntry_now : (putEntry e s).now = s.now := rfl
@[simp] theorem putEntry_own : (putEntry e s).own = s.own := rfl
@[simp] theorem putEntry_cfg : (putEntry e s).cfg = s.cfg := rfl
@[simp] theorem putEntry_bitTime : (putEntry e s).bitTime = s.bitTime := rfl
@[simp] theorem putEntry_members : (putEntry e s).members = s.members := rfl
@[simp] theorem putEntry_driverEnabled : (putEntry e s).driverEnabled = s.driverEnabled := rfl
@[simp] theorem putEntry_noticeDue : (putEntry e s).noticeDue = s.noticeDue := rfl
@[simp] theorem putEntry_peer (n : Station) : (putEntry e s).peer n = s.peer n := rfl
@[simp] theorem putEntry_output (c : Channel) : (putEntry e s).output c = s.output c := rfl

end

section

variable (id : ActionId)

@[simp] theorem removeEntry_straps : (removeEntry id s).straps = s.straps := rfl
@[simp] theorem removeEntry_resetLow : (removeEntry id s).resetLow = s.resetLow := rfl
@[simp] theorem removeEntry_period : (removeEntry id s).period = s.period := rfl
@[simp] theorem removeEntry_pins : (removeEntry id s).pins = s.pins := rfl
@[simp] theorem removeEntry_line : (removeEntry id s).line = s.line := rfl
@[simp] theorem removeEntry_engine_nextAge : (removeEntry id s).engine.nextAge = s.engine.nextAge := rfl
@[simp] theorem removeEntry_engine_frame : (removeEntry id s).engine.frame = s.engine.frame := rfl
@[simp] theorem removeEntry_engine_run : (removeEntry id s).engine.run = s.engine.run := rfl
@[simp] theorem removeEntry_base : (removeEntry id s).base = s.base := rfl
@[simp] theorem removeEntry_peers : (removeEntry id s).peers = s.peers := rfl
@[simp] theorem removeEntry_rounds : (removeEntry id s).rounds = s.rounds := rfl
@[simp] theorem removeEntry_ctl : (removeEntry id s).ctl = s.ctl := rfl
@[simp] theorem removeEntry_table_outputs : (removeEntry id s).table.outputs = s.table.outputs := rfl
@[simp] theorem removeEntry_table_trigPins : (removeEntry id s).table.trigPins = s.table.trigPins := rfl
@[simp] theorem removeEntry_table_firedNow : (removeEntry id s).table.firedNow = s.table.firedNow := rfl
@[simp] theorem removeEntry_table_firedOutputs : (removeEntry id s).table.firedOutputs = s.table.firedOutputs := rfl
@[simp] theorem removeEntry_table_expiring : (removeEntry id s).table.expiring = s.table.expiring := rfl
@[simp] theorem removeEntry_table_proposedNow : (removeEntry id s).table.proposedNow = s.table.proposedNow := rfl
@[simp] theorem removeEntry_capture : (removeEntry id s).capture = s.capture := rfl
@[simp] theorem removeEntry_reports : (removeEntry id s).reports = s.reports := rfl
@[simp] theorem removeEntry_port : (removeEntry id s).port = s.port := rfl
@[simp] theorem removeEntry_inForce : (removeEntry id s).inForce = s.inForce := rfl
@[simp] theorem removeEntry_pending : (removeEntry id s).pending = s.pending := rfl
@[simp] theorem removeEntry_now : (removeEntry id s).now = s.now := rfl
@[simp] theorem removeEntry_own : (removeEntry id s).own = s.own := rfl
@[simp] theorem removeEntry_cfg : (removeEntry id s).cfg = s.cfg := rfl
@[simp] theorem removeEntry_bitTime : (removeEntry id s).bitTime = s.bitTime := rfl
@[simp] theorem removeEntry_members : (removeEntry id s).members = s.members := rfl
@[simp] theorem removeEntry_driverEnabled : (removeEntry id s).driverEnabled = s.driverEnabled := rfl
@[simp] theorem removeEntry_noticeDue : (removeEntry id s).noticeDue = s.noticeDue := rfl
@[simp] theorem removeEntry_peer (n : Station) : (removeEntry id s).peer n = s.peer n := rfl
@[simp] theorem removeEntry_output (c : Channel) : (removeEntry id s).output c = s.output c := rfl

end

section

variable (n : Station) (p : Peer)

@[simp] theorem setPeer_straps : (setPeer n p s).straps = s.straps := rfl
@[simp] theorem setPeer_resetLow : (setPeer n p s).resetLow = s.resetLow := rfl
@[simp] theorem setPeer_period : (setPeer n p s).period = s.period := rfl
@[simp] theorem setPeer_pins : (setPeer n p s).pins = s.pins := rfl
@[simp] theorem setPeer_line : (setPeer n p s).line = s.line := rfl
@[simp] theorem setPeer_engine : (setPeer n p s).engine = s.engine := rfl
@[simp] theorem setPeer_base : (setPeer n p s).base = s.base := rfl
@[simp] theorem setPeer_rounds : (setPeer n p s).rounds = s.rounds := rfl
@[simp] theorem setPeer_ctl : (setPeer n p s).ctl = s.ctl := rfl
@[simp] theorem setPeer_table : (setPeer n p s).table = s.table := rfl
@[simp] theorem setPeer_capture : (setPeer n p s).capture = s.capture := rfl
@[simp] theorem setPeer_reports : (setPeer n p s).reports = s.reports := rfl
@[simp] theorem setPeer_port : (setPeer n p s).port = s.port := rfl
@[simp] theorem setPeer_inForce : (setPeer n p s).inForce = s.inForce := rfl
@[simp] theorem setPeer_pending : (setPeer n p s).pending = s.pending := rfl
@[simp] theorem setPeer_now : (setPeer n p s).now = s.now := rfl
@[simp] theorem setPeer_own : (setPeer n p s).own = s.own := rfl
@[simp] theorem setPeer_cfg : (setPeer n p s).cfg = s.cfg := rfl
@[simp] theorem setPeer_bitTime : (setPeer n p s).bitTime = s.bitTime := rfl
@[simp] theorem setPeer_driverEnabled : (setPeer n p s).driverEnabled = s.driverEnabled := rfl
@[simp] theorem setPeer_noticeDue : (setPeer n p s).noticeDue = s.noticeDue := rfl
@[simp] theorem setPeer_output (c : Channel) : (setPeer n p s).output c = s.output c := rfl
@[simp] theorem setPeer_entry (i : ActionId) : (setPeer n p s).entry? i = s.entry? i := rfl

end

@[simp] theorem clearSamples_straps : (clearSamples s).straps = s.straps := rfl
@[simp] theorem clearSamples_resetLow : (clearSamples s).resetLow = s.resetLow := rfl
@[simp] theorem clearSamples_period : (clearSamples s).period = s.period := rfl
@[simp] theorem clearSamples_pins : (clearSamples s).pins = s.pins := rfl
@[simp] theorem clearSamples_line : (clearSamples s).line = s.line := rfl
@[simp] theorem clearSamples_engine : (clearSamples s).engine = s.engine := rfl
@[simp] theorem clearSamples_base : (clearSamples s).base = s.base := rfl
@[simp] theorem clearSamples_rounds_active : (clearSamples s).rounds.active = s.rounds.active := rfl
@[simp] theorem clearSamples_rounds_round : (clearSamples s).rounds.round = s.rounds.round := rfl
@[simp] theorem clearSamples_rounds_windowOpen : (clearSamples s).rounds.windowOpen = s.rounds.windowOpen := rfl
@[simp] theorem clearSamples_rounds_syncSent : (clearSamples s).rounds.syncSent = s.rounds.syncSent := rfl
@[simp] theorem clearSamples_rounds_joinRun : (clearSamples s).rounds.joinRun = s.rounds.joinRun := rfl
@[simp] theorem clearSamples_rounds_peered : (clearSamples s).rounds.peered = s.rounds.peered := rfl
@[simp] theorem clearSamples_rounds_lastCorrection : (clearSamples s).rounds.lastCorrection = s.rounds.lastCorrection := rfl
@[simp] theorem clearSamples_ctl : (clearSamples s).ctl = s.ctl := rfl
@[simp] theorem clearSamples_table : (clearSamples s).table = s.table := rfl
@[simp] theorem clearSamples_capture : (clearSamples s).capture = s.capture := rfl
@[simp] theorem clearSamples_reports : (clearSamples s).reports = s.reports := rfl
@[simp] theorem clearSamples_port : (clearSamples s).port = s.port := rfl
@[simp] theorem clearSamples_inForce : (clearSamples s).inForce = s.inForce := rfl
@[simp] theorem clearSamples_pending : (clearSamples s).pending = s.pending := rfl
@[simp] theorem clearSamples_now : (clearSamples s).now = s.now := rfl
@[simp] theorem clearSamples_own : (clearSamples s).own = s.own := rfl
@[simp] theorem clearSamples_cfg : (clearSamples s).cfg = s.cfg := rfl
@[simp] theorem clearSamples_bitTime : (clearSamples s).bitTime = s.bitTime := rfl
@[simp] theorem clearSamples_driverEnabled : (clearSamples s).driverEnabled = s.driverEnabled := rfl
@[simp] theorem clearSamples_noticeDue : (clearSamples s).noticeDue = s.noticeDue := rfl
@[simp] theorem clearSamples_output (c : Channel) : (clearSamples s).output c = s.output c := rfl
@[simp] theorem clearSamples_entry (i : ActionId) : (clearSamples s).entry? i = s.entry? i := rfl

@[simp] theorem zeroSlew_straps : (zeroSlew s).straps = s.straps := rfl
@[simp] theorem zeroSlew_resetLow : (zeroSlew s).resetLow = s.resetLow := rfl
@[simp] theorem zeroSlew_period : (zeroSlew s).period = s.period := rfl
@[simp] theorem zeroSlew_pins : (zeroSlew s).pins = s.pins := rfl
@[simp] theorem zeroSlew_line : (zeroSlew s).line = s.line := rfl
@[simp] theorem zeroSlew_engine : (zeroSlew s).engine = s.engine := rfl
@[simp] theorem zeroSlew_base_time : (zeroSlew s).base.time = s.base.time := rfl
@[simp] theorem zeroSlew_base_fraction : (zeroSlew s).base.fraction = s.base.fraction := rfl
@[simp] theorem zeroSlew_base_trim : (zeroSlew s).base.trim = s.base.trim := rfl
@[simp] theorem zeroSlew_base_running : (zeroSlew s).base.running = s.base.running := rfl
@[simp] theorem zeroSlew_base_latch : (zeroSlew s).base.latch = s.base.latch := rfl
@[simp] theorem zeroSlew_base_pendingStep : (zeroSlew s).base.pendingStep = s.base.pendingStep := rfl
@[simp] theorem zeroSlew_base_notice : (zeroSlew s).base.notice = s.base.notice := rfl
@[simp] theorem zeroSlew_peers : (zeroSlew s).peers = s.peers := rfl
@[simp] theorem zeroSlew_rounds : (zeroSlew s).rounds = s.rounds := rfl
@[simp] theorem zeroSlew_ctl : (zeroSlew s).ctl = s.ctl := rfl
@[simp] theorem zeroSlew_table : (zeroSlew s).table = s.table := rfl
@[simp] theorem zeroSlew_capture : (zeroSlew s).capture = s.capture := rfl
@[simp] theorem zeroSlew_reports : (zeroSlew s).reports = s.reports := rfl
@[simp] theorem zeroSlew_port : (zeroSlew s).port = s.port := rfl
@[simp] theorem zeroSlew_inForce : (zeroSlew s).inForce = s.inForce := rfl
@[simp] theorem zeroSlew_pending : (zeroSlew s).pending = s.pending := rfl
@[simp] theorem zeroSlew_now : (zeroSlew s).now = s.now := rfl
@[simp] theorem zeroSlew_own : (zeroSlew s).own = s.own := rfl
@[simp] theorem zeroSlew_cfg : (zeroSlew s).cfg = s.cfg := rfl
@[simp] theorem zeroSlew_bitTime : (zeroSlew s).bitTime = s.bitTime := rfl
@[simp] theorem zeroSlew_members : (zeroSlew s).members = s.members := rfl
@[simp] theorem zeroSlew_driverEnabled : (zeroSlew s).driverEnabled = s.driverEnabled := rfl
@[simp] theorem zeroSlew_noticeDue : (zeroSlew s).noticeDue = s.noticeDue := rfl
@[simp] theorem zeroSlew_peer (n : Station) : (zeroSlew s).peer n = s.peer n := rfl
@[simp] theorem zeroSlew_output (c : Channel) : (zeroSlew s).output c = s.output c := rfl
@[simp] theorem zeroSlew_entry (i : ActionId) : (zeroSlew s).entry? i = s.entry? i := rfl

section

variable (c : Channel) (o : Output)

@[simp] theorem setOutput_straps : (setOutput c o s).straps = s.straps := rfl
@[simp] theorem setOutput_resetLow : (setOutput c o s).resetLow = s.resetLow := rfl
@[simp] theorem setOutput_period : (setOutput c o s).period = s.period := rfl
@[simp] theorem setOutput_pins : (setOutput c o s).pins = s.pins := rfl
@[simp] theorem setOutput_line : (setOutput c o s).line = s.line := rfl
@[simp] theorem setOutput_engine : (setOutput c o s).engine = s.engine := rfl
@[simp] theorem setOutput_base : (setOutput c o s).base = s.base := rfl
@[simp] theorem setOutput_peers : (setOutput c o s).peers = s.peers := rfl
@[simp] theorem setOutput_rounds : (setOutput c o s).rounds = s.rounds := rfl
@[simp] theorem setOutput_ctl : (setOutput c o s).ctl = s.ctl := rfl
@[simp] theorem setOutput_table_entries : (setOutput c o s).table.entries = s.table.entries := rfl
@[simp] theorem setOutput_table_trigPins : (setOutput c o s).table.trigPins = s.table.trigPins := rfl
@[simp] theorem setOutput_table_firedNow : (setOutput c o s).table.firedNow = s.table.firedNow := rfl
@[simp] theorem setOutput_table_firedOutputs : (setOutput c o s).table.firedOutputs = s.table.firedOutputs := rfl
@[simp] theorem setOutput_table_expiring : (setOutput c o s).table.expiring = s.table.expiring := rfl
@[simp] theorem setOutput_table_proposedNow : (setOutput c o s).table.proposedNow = s.table.proposedNow := rfl
@[simp] theorem setOutput_capture : (setOutput c o s).capture = s.capture := rfl
@[simp] theorem setOutput_reports : (setOutput c o s).reports = s.reports := rfl
@[simp] theorem setOutput_port : (setOutput c o s).port = s.port := rfl
@[simp] theorem setOutput_inForce : (setOutput c o s).inForce = s.inForce := rfl
@[simp] theorem setOutput_pending : (setOutput c o s).pending = s.pending := rfl
@[simp] theorem setOutput_now : (setOutput c o s).now = s.now := rfl
@[simp] theorem setOutput_own : (setOutput c o s).own = s.own := rfl
@[simp] theorem setOutput_cfg : (setOutput c o s).cfg = s.cfg := rfl
@[simp] theorem setOutput_bitTime : (setOutput c o s).bitTime = s.bitTime := rfl
@[simp] theorem setOutput_members : (setOutput c o s).members = s.members := rfl
@[simp] theorem setOutput_driverEnabled : (setOutput c o s).driverEnabled = s.driverEnabled := rfl
@[simp] theorem setOutput_noticeDue : (setOutput c o s).noticeDue = s.noticeDue := rfl
@[simp] theorem setOutput_peer (n : Station) : (setOutput c o s).peer n = s.peer n := rfl
@[simp] theorem setOutput_entry (i : ActionId) : (setOutput c o s).entry? i = s.entry? i := rfl

end

section

variable (e : Entry)

@[simp] theorem markFired_straps : (markFired e s).straps = s.straps := rfl
@[simp] theorem markFired_resetLow : (markFired e s).resetLow = s.resetLow := rfl
@[simp] theorem markFired_period : (markFired e s).period = s.period := rfl
@[simp] theorem markFired_pins : (markFired e s).pins = s.pins := rfl
@[simp] theorem markFired_line : (markFired e s).line = s.line := rfl
@[simp] theorem markFired_engine : (markFired e s).engine = s.engine := rfl
@[simp] theorem markFired_base : (markFired e s).base = s.base := rfl
@[simp] theorem markFired_peers : (markFired e s).peers = s.peers := rfl
@[simp] theorem markFired_rounds : (markFired e s).rounds = s.rounds := rfl
@[simp] theorem markFired_ctl : (markFired e s).ctl = s.ctl := rfl
@[simp] theorem markFired_table_entries : (markFired e s).table.entries = s.table.entries := rfl
@[simp] theorem markFired_table_outputs : (markFired e s).table.outputs = s.table.outputs := rfl
@[simp] theorem markFired_table_expiring : (markFired e s).table.expiring = s.table.expiring := rfl
@[simp] theorem markFired_table_proposedNow : (markFired e s).table.proposedNow = s.table.proposedNow := rfl
@[simp] theorem markFired_table_trigPins : (markFired e s).table.trigPins = s.table.trigPins := rfl
@[simp] theorem markFired_capture : (markFired e s).capture = s.capture := rfl
@[simp] theorem markFired_reports : (markFired e s).reports = s.reports := rfl
@[simp] theorem markFired_port : (markFired e s).port = s.port := rfl
@[simp] theorem markFired_inForce : (markFired e s).inForce = s.inForce := rfl
@[simp] theorem markFired_pending : (markFired e s).pending = s.pending := rfl
@[simp] theorem markFired_now : (markFired e s).now = s.now := rfl
@[simp] theorem markFired_own : (markFired e s).own = s.own := rfl
@[simp] theorem markFired_cfg : (markFired e s).cfg = s.cfg := rfl
@[simp] theorem markFired_bitTime : (markFired e s).bitTime = s.bitTime := rfl
@[simp] theorem markFired_members : (markFired e s).members = s.members := rfl
@[simp] theorem markFired_driverEnabled : (markFired e s).driverEnabled = s.driverEnabled := rfl
@[simp] theorem markFired_noticeDue : (markFired e s).noticeDue = s.noticeDue := rfl
@[simp] theorem markFired_peer (n : Station) : (markFired e s).peer n = s.peer n := rfl
@[simp] theorem markFired_output (c : Channel) : (markFired e s).output c = s.output c := rfl
@[simp] theorem markFired_entry (i : ActionId) : (markFired e s).entry? i = s.entry? i := rfl

end

section

variable (id : ActionId)

@[simp] theorem markProposed_straps : (markProposed id s).straps = s.straps := rfl
@[simp] theorem markProposed_resetLow : (markProposed id s).resetLow = s.resetLow := rfl
@[simp] theorem markProposed_period : (markProposed id s).period = s.period := rfl
@[simp] theorem markProposed_pins : (markProposed id s).pins = s.pins := rfl
@[simp] theorem markProposed_line : (markProposed id s).line = s.line := rfl
@[simp] theorem markProposed_engine : (markProposed id s).engine = s.engine := rfl
@[simp] theorem markProposed_base : (markProposed id s).base = s.base := rfl
@[simp] theorem markProposed_peers : (markProposed id s).peers = s.peers := rfl
@[simp] theorem markProposed_rounds : (markProposed id s).rounds = s.rounds := rfl
@[simp] theorem markProposed_ctl : (markProposed id s).ctl = s.ctl := rfl
@[simp] theorem markProposed_table_entries : (markProposed id s).table.entries = s.table.entries := rfl
@[simp] theorem markProposed_table_outputs : (markProposed id s).table.outputs = s.table.outputs := rfl
@[simp] theorem markProposed_table_firedNow : (markProposed id s).table.firedNow = s.table.firedNow := rfl
@[simp] theorem markProposed_table_firedOutputs : (markProposed id s).table.firedOutputs = s.table.firedOutputs := rfl
@[simp] theorem markProposed_table_expiring : (markProposed id s).table.expiring = s.table.expiring := rfl
@[simp] theorem markProposed_table_trigPins : (markProposed id s).table.trigPins = s.table.trigPins := rfl
@[simp] theorem markProposed_capture : (markProposed id s).capture = s.capture := rfl
@[simp] theorem markProposed_reports : (markProposed id s).reports = s.reports := rfl
@[simp] theorem markProposed_port : (markProposed id s).port = s.port := rfl
@[simp] theorem markProposed_inForce : (markProposed id s).inForce = s.inForce := rfl
@[simp] theorem markProposed_pending : (markProposed id s).pending = s.pending := rfl
@[simp] theorem markProposed_now : (markProposed id s).now = s.now := rfl
@[simp] theorem markProposed_own : (markProposed id s).own = s.own := rfl
@[simp] theorem markProposed_cfg : (markProposed id s).cfg = s.cfg := rfl
@[simp] theorem markProposed_bitTime : (markProposed id s).bitTime = s.bitTime := rfl
@[simp] theorem markProposed_members : (markProposed id s).members = s.members := rfl
@[simp] theorem markProposed_driverEnabled : (markProposed id s).driverEnabled = s.driverEnabled := rfl
@[simp] theorem markProposed_noticeDue : (markProposed id s).noticeDue = s.noticeDue := rfl
@[simp] theorem markProposed_peer (n : Station) : (markProposed id s).peer n = s.peer n := rfl
@[simp] theorem markProposed_output (c : Channel) : (markProposed id s).output c = s.output c := rfl
@[simp] theorem markProposed_entry (i : ActionId) : (markProposed id s).entry? i = s.entry? i := rfl

end

@[simp] theorem markCheckPoint_straps : (markCheckPoint s).straps = s.straps := rfl
@[simp] theorem markCheckPoint_resetLow : (markCheckPoint s).resetLow = s.resetLow := rfl
@[simp] theorem markCheckPoint_period : (markCheckPoint s).period = s.period := rfl
@[simp] theorem markCheckPoint_pins : (markCheckPoint s).pins = s.pins := rfl
@[simp] theorem markCheckPoint_line : (markCheckPoint s).line = s.line := rfl
@[simp] theorem markCheckPoint_engine_needs : (markCheckPoint s).engine.needs = s.engine.needs := rfl
@[simp] theorem markCheckPoint_engine_nextAge : (markCheckPoint s).engine.nextAge = s.engine.nextAge := rfl
@[simp] theorem markCheckPoint_engine_run : (markCheckPoint s).engine.run = s.engine.run := rfl
@[simp] theorem markCheckPoint_base : (markCheckPoint s).base = s.base := rfl
@[simp] theorem markCheckPoint_peers : (markCheckPoint s).peers = s.peers := rfl
@[simp] theorem markCheckPoint_rounds : (markCheckPoint s).rounds = s.rounds := rfl
@[simp] theorem markCheckPoint_ctl : (markCheckPoint s).ctl = s.ctl := rfl
@[simp] theorem markCheckPoint_table : (markCheckPoint s).table = s.table := rfl
@[simp] theorem markCheckPoint_capture : (markCheckPoint s).capture = s.capture := rfl
@[simp] theorem markCheckPoint_reports : (markCheckPoint s).reports = s.reports := rfl
@[simp] theorem markCheckPoint_port : (markCheckPoint s).port = s.port := rfl
@[simp] theorem markCheckPoint_inForce : (markCheckPoint s).inForce = s.inForce := rfl
@[simp] theorem markCheckPoint_pending : (markCheckPoint s).pending = s.pending := rfl
@[simp] theorem markCheckPoint_now : (markCheckPoint s).now = s.now := rfl
@[simp] theorem markCheckPoint_own : (markCheckPoint s).own = s.own := rfl
@[simp] theorem markCheckPoint_cfg : (markCheckPoint s).cfg = s.cfg := rfl
@[simp] theorem markCheckPoint_bitTime : (markCheckPoint s).bitTime = s.bitTime := rfl
@[simp] theorem markCheckPoint_members : (markCheckPoint s).members = s.members := rfl
@[simp] theorem markCheckPoint_driverEnabled : (markCheckPoint s).driverEnabled = s.driverEnabled := rfl
@[simp] theorem markCheckPoint_noticeDue : (markCheckPoint s).noticeDue = s.noticeDue := rfl
@[simp] theorem markCheckPoint_peer (n : Station) : (markCheckPoint s).peer n = s.peer n := rfl
@[simp] theorem markCheckPoint_output (c : Channel) : (markCheckPoint s).output c = s.output c := rfl
@[simp] theorem markCheckPoint_entry (i : ActionId) : (markCheckPoint s).entry? i = s.entry? i := rfl

@[simp] theorem countFailure_straps : (countFailure s).straps = s.straps := rfl
@[simp] theorem countFailure_resetLow : (countFailure s).resetLow = s.resetLow := rfl
@[simp] theorem countFailure_period : (countFailure s).period = s.period := rfl
@[simp] theorem countFailure_pins : (countFailure s).pins = s.pins := rfl
@[simp] theorem countFailure_line : (countFailure s).line = s.line := rfl
@[simp] theorem countFailure_engine_needs : (countFailure s).engine.needs = s.engine.needs := rfl
@[simp] theorem countFailure_engine_nextAge : (countFailure s).engine.nextAge = s.engine.nextAge := rfl
@[simp] theorem countFailure_engine_frame : (countFailure s).engine.frame = s.engine.frame := rfl
@[simp] theorem countFailure_base : (countFailure s).base = s.base := rfl
@[simp] theorem countFailure_peers : (countFailure s).peers = s.peers := rfl
@[simp] theorem countFailure_rounds : (countFailure s).rounds = s.rounds := rfl
@[simp] theorem countFailure_ctl : (countFailure s).ctl = s.ctl := rfl
@[simp] theorem countFailure_table : (countFailure s).table = s.table := rfl
@[simp] theorem countFailure_capture : (countFailure s).capture = s.capture := rfl
@[simp] theorem countFailure_reports : (countFailure s).reports = s.reports := rfl
@[simp] theorem countFailure_port : (countFailure s).port = s.port := rfl
@[simp] theorem countFailure_inForce : (countFailure s).inForce = s.inForce := rfl
@[simp] theorem countFailure_pending : (countFailure s).pending = s.pending := rfl
@[simp] theorem countFailure_now : (countFailure s).now = s.now := rfl
@[simp] theorem countFailure_own : (countFailure s).own = s.own := rfl
@[simp] theorem countFailure_cfg : (countFailure s).cfg = s.cfg := rfl
@[simp] theorem countFailure_bitTime : (countFailure s).bitTime = s.bitTime := rfl
@[simp] theorem countFailure_members : (countFailure s).members = s.members := rfl
@[simp] theorem countFailure_driverEnabled : (countFailure s).driverEnabled = s.driverEnabled := rfl
@[simp] theorem countFailure_noticeDue : (countFailure s).noticeDue = s.noticeDue := rfl
@[simp] theorem countFailure_peer (n : Station) : (countFailure s).peer n = s.peer n := rfl
@[simp] theorem countFailure_output (c : Channel) : (countFailure s).output c = s.output c := rfl
@[simp] theorem countFailure_entry (i : ActionId) : (countFailure s).entry? i = s.entry? i := rfl

@[simp] theorem dropLatch_straps : (dropLatch s).straps = s.straps := rfl
@[simp] theorem dropLatch_resetLow : (dropLatch s).resetLow = s.resetLow := rfl
@[simp] theorem dropLatch_period : (dropLatch s).period = s.period := rfl
@[simp] theorem dropLatch_pins : (dropLatch s).pins = s.pins := rfl
@[simp] theorem dropLatch_line : (dropLatch s).line = s.line := rfl
@[simp] theorem dropLatch_engine : (dropLatch s).engine = s.engine := rfl
@[simp] theorem dropLatch_base_time : (dropLatch s).base.time = s.base.time := rfl
@[simp] theorem dropLatch_base_fraction : (dropLatch s).base.fraction = s.base.fraction := rfl
@[simp] theorem dropLatch_base_trim : (dropLatch s).base.trim = s.base.trim := rfl
@[simp] theorem dropLatch_base_slew : (dropLatch s).base.slew = s.base.slew := rfl
@[simp] theorem dropLatch_base_running : (dropLatch s).base.running = s.base.running := rfl
@[simp] theorem dropLatch_base_pendingStep : (dropLatch s).base.pendingStep = s.base.pendingStep := rfl
@[simp] theorem dropLatch_base_notice : (dropLatch s).base.notice = s.base.notice := rfl
@[simp] theorem dropLatch_peers : (dropLatch s).peers = s.peers := rfl
@[simp] theorem dropLatch_rounds : (dropLatch s).rounds = s.rounds := rfl
@[simp] theorem dropLatch_ctl : (dropLatch s).ctl = s.ctl := rfl
@[simp] theorem dropLatch_table : (dropLatch s).table = s.table := rfl
@[simp] theorem dropLatch_capture : (dropLatch s).capture = s.capture := rfl
@[simp] theorem dropLatch_reports : (dropLatch s).reports = s.reports := rfl
@[simp] theorem dropLatch_port : (dropLatch s).port = s.port := rfl
@[simp] theorem dropLatch_inForce : (dropLatch s).inForce = s.inForce := rfl
@[simp] theorem dropLatch_pending : (dropLatch s).pending = s.pending := rfl
@[simp] theorem dropLatch_now : (dropLatch s).now = s.now := rfl
@[simp] theorem dropLatch_own : (dropLatch s).own = s.own := rfl
@[simp] theorem dropLatch_cfg : (dropLatch s).cfg = s.cfg := rfl
@[simp] theorem dropLatch_bitTime : (dropLatch s).bitTime = s.bitTime := rfl
@[simp] theorem dropLatch_members : (dropLatch s).members = s.members := rfl
@[simp] theorem dropLatch_driverEnabled : (dropLatch s).driverEnabled = s.driverEnabled := rfl
@[simp] theorem dropLatch_noticeDue : (dropLatch s).noticeDue = s.noticeDue := rfl
@[simp] theorem dropLatch_peer (n : Station) : (dropLatch s).peer n = s.peer n := rfl
@[simp] theorem dropLatch_output (c : Channel) : (dropLatch s).output c = s.output c := rfl
@[simp] theorem dropLatch_entry (i : ActionId) : (dropLatch s).entry? i = s.entry? i := rfl

@[simp] theorem idleRounds_straps : (idleRounds s).straps = s.straps := rfl
@[simp] theorem idleRounds_resetLow : (idleRounds s).resetLow = s.resetLow := rfl
@[simp] theorem idleRounds_period : (idleRounds s).period = s.period := rfl
@[simp] theorem idleRounds_pins : (idleRounds s).pins = s.pins := rfl
@[simp] theorem idleRounds_line : (idleRounds s).line = s.line := rfl
@[simp] theorem idleRounds_engine : (idleRounds s).engine = s.engine := rfl
@[simp] theorem idleRounds_base : (idleRounds s).base = s.base := rfl
@[simp] theorem idleRounds_peers : (idleRounds s).peers = s.peers := rfl
@[simp] theorem idleRounds_rounds_round : (idleRounds s).rounds.round = s.rounds.round := rfl
@[simp] theorem idleRounds_rounds_samples : (idleRounds s).rounds.samples = s.rounds.samples := rfl
@[simp] theorem idleRounds_rounds_syncSent : (idleRounds s).rounds.syncSent = s.rounds.syncSent := rfl
@[simp] theorem idleRounds_rounds_joinRun : (idleRounds s).rounds.joinRun = s.rounds.joinRun := rfl
@[simp] theorem idleRounds_rounds_peered : (idleRounds s).rounds.peered = s.rounds.peered := rfl
@[simp] theorem idleRounds_rounds_lastCorrection : (idleRounds s).rounds.lastCorrection = s.rounds.lastCorrection := rfl
@[simp] theorem idleRounds_ctl : (idleRounds s).ctl = s.ctl := rfl
@[simp] theorem idleRounds_table : (idleRounds s).table = s.table := rfl
@[simp] theorem idleRounds_capture : (idleRounds s).capture = s.capture := rfl
@[simp] theorem idleRounds_reports : (idleRounds s).reports = s.reports := rfl
@[simp] theorem idleRounds_port : (idleRounds s).port = s.port := rfl
@[simp] theorem idleRounds_inForce : (idleRounds s).inForce = s.inForce := rfl
@[simp] theorem idleRounds_pending : (idleRounds s).pending = s.pending := rfl
@[simp] theorem idleRounds_now : (idleRounds s).now = s.now := rfl
@[simp] theorem idleRounds_own : (idleRounds s).own = s.own := rfl
@[simp] theorem idleRounds_cfg : (idleRounds s).cfg = s.cfg := rfl
@[simp] theorem idleRounds_bitTime : (idleRounds s).bitTime = s.bitTime := rfl
@[simp] theorem idleRounds_members : (idleRounds s).members = s.members := rfl
@[simp] theorem idleRounds_driverEnabled : (idleRounds s).driverEnabled = s.driverEnabled := rfl
@[simp] theorem idleRounds_noticeDue : (idleRounds s).noticeDue = s.noticeDue := rfl
@[simp] theorem idleRounds_peer (n : Station) : (idleRounds s).peer n = s.peer n := rfl
@[simp] theorem idleRounds_output (c : Channel) : (idleRounds s).output c = s.output c := rfl
@[simp] theorem idleRounds_entry (i : ActionId) : (idleRounds s).entry? i = s.entry? i := rfl

@[simp] theorem drawSeq_straps : (drawSeq s).straps = s.straps := rfl
@[simp] theorem drawSeq_resetLow : (drawSeq s).resetLow = s.resetLow := rfl
@[simp] theorem drawSeq_period : (drawSeq s).period = s.period := rfl
@[simp] theorem drawSeq_pins : (drawSeq s).pins = s.pins := rfl
@[simp] theorem drawSeq_line : (drawSeq s).line = s.line := rfl
@[simp] theorem drawSeq_engine : (drawSeq s).engine = s.engine := rfl
@[simp] theorem drawSeq_base : (drawSeq s).base = s.base := rfl
@[simp] theorem drawSeq_peers : (drawSeq s).peers = s.peers := rfl
@[simp] theorem drawSeq_rounds : (drawSeq s).rounds = s.rounds := rfl
@[simp] theorem drawSeq_ctl_state : (drawSeq s).ctl.state = s.ctl.state := rfl
@[simp] theorem drawSeq_ctl_faultCause : (drawSeq s).ctl.faultCause = s.ctl.faultCause := rfl
@[simp] theorem drawSeq_ctl_listenTimer : (drawSeq s).ctl.listenTimer = s.ctl.listenTimer := rfl
@[simp] theorem drawSeq_ctl_leaveFailures : (drawSeq s).ctl.leaveFailures = s.ctl.leaveFailures := rfl
@[simp] theorem drawSeq_table : (drawSeq s).table = s.table := rfl
@[simp] theorem drawSeq_capture : (drawSeq s).capture = s.capture := rfl
@[simp] theorem drawSeq_reports : (drawSeq s).reports = s.reports := rfl
@[simp] theorem drawSeq_port : (drawSeq s).port = s.port := rfl
@[simp] theorem drawSeq_inForce : (drawSeq s).inForce = s.inForce := rfl
@[simp] theorem drawSeq_pending : (drawSeq s).pending = s.pending := rfl
@[simp] theorem drawSeq_now : (drawSeq s).now = s.now := rfl
@[simp] theorem drawSeq_own : (drawSeq s).own = s.own := rfl
@[simp] theorem drawSeq_cfg : (drawSeq s).cfg = s.cfg := rfl
@[simp] theorem drawSeq_bitTime : (drawSeq s).bitTime = s.bitTime := rfl
@[simp] theorem drawSeq_members : (drawSeq s).members = s.members := rfl
@[simp] theorem drawSeq_driverEnabled : (drawSeq s).driverEnabled = s.driverEnabled := rfl
@[simp] theorem drawSeq_noticeDue : (drawSeq s).noticeDue = s.noticeDue := rfl
@[simp] theorem drawSeq_peer (n : Station) : (drawSeq s).peer n = s.peer n := rfl
@[simp] theorem drawSeq_output (c : Channel) : (drawSeq s).output c = s.output c := rfl
@[simp] theorem drawSeq_entry (i : ActionId) : (drawSeq s).entry? i = s.entry? i := rfl

section

variable (r : CaptureRecord)

@[simp] theorem joinCapture_straps : (joinCapture r s).straps = s.straps := rfl
@[simp] theorem joinCapture_resetLow : (joinCapture r s).resetLow = s.resetLow := rfl
@[simp] theorem joinCapture_period : (joinCapture r s).period = s.period := rfl
@[simp] theorem joinCapture_pins : (joinCapture r s).pins = s.pins := rfl
@[simp] theorem joinCapture_line : (joinCapture r s).line = s.line := rfl
@[simp] theorem joinCapture_engine : (joinCapture r s).engine = s.engine := rfl
@[simp] theorem joinCapture_base : (joinCapture r s).base = s.base := rfl
@[simp] theorem joinCapture_peers : (joinCapture r s).peers = s.peers := rfl
@[simp] theorem joinCapture_rounds : (joinCapture r s).rounds = s.rounds := rfl
@[simp] theorem joinCapture_ctl : (joinCapture r s).ctl = s.ctl := rfl
@[simp] theorem joinCapture_table : (joinCapture r s).table = s.table := rfl
@[simp] theorem joinCapture_capture_sampled : (joinCapture r s).capture.sampled = s.capture.sampled := rfl
@[simp] theorem joinCapture_capture_edges : (joinCapture r s).capture.edges = s.capture.edges := rfl
@[simp] theorem joinCapture_capture_marks : (joinCapture r s).capture.marks = s.capture.marks := rfl
@[simp] theorem joinCapture_reports : (joinCapture r s).reports = s.reports := rfl
@[simp] theorem joinCapture_port : (joinCapture r s).port = s.port := rfl
@[simp] theorem joinCapture_inForce : (joinCapture r s).inForce = s.inForce := rfl
@[simp] theorem joinCapture_pending : (joinCapture r s).pending = s.pending := rfl
@[simp] theorem joinCapture_now : (joinCapture r s).now = s.now := rfl
@[simp] theorem joinCapture_own : (joinCapture r s).own = s.own := rfl
@[simp] theorem joinCapture_cfg : (joinCapture r s).cfg = s.cfg := rfl
@[simp] theorem joinCapture_bitTime : (joinCapture r s).bitTime = s.bitTime := rfl
@[simp] theorem joinCapture_members : (joinCapture r s).members = s.members := rfl
@[simp] theorem joinCapture_driverEnabled : (joinCapture r s).driverEnabled = s.driverEnabled := rfl
@[simp] theorem joinCapture_noticeDue : (joinCapture r s).noticeDue = s.noticeDue := rfl
@[simp] theorem joinCapture_peer (n : Station) : (joinCapture r s).peer n = s.peer n := rfl
@[simp] theorem joinCapture_output (c : Channel) : (joinCapture r s).output c = s.output c := rfl
@[simp] theorem joinCapture_entry (i : ActionId) : (joinCapture r s).entry? i = s.entry? i := rfl

end

@[simp] theorem clearTable_straps : (clearTable s).straps = s.straps := rfl
@[simp] theorem clearTable_resetLow : (clearTable s).resetLow = s.resetLow := rfl
@[simp] theorem clearTable_period : (clearTable s).period = s.period := rfl
@[simp] theorem clearTable_pins : (clearTable s).pins = s.pins := rfl
@[simp] theorem clearTable_line : (clearTable s).line = s.line := rfl
@[simp] theorem clearTable_engine : (clearTable s).engine = s.engine := rfl
@[simp] theorem clearTable_base : (clearTable s).base = s.base := rfl
@[simp] theorem clearTable_peers : (clearTable s).peers = s.peers := rfl
@[simp] theorem clearTable_rounds : (clearTable s).rounds = s.rounds := rfl
@[simp] theorem clearTable_ctl : (clearTable s).ctl = s.ctl := rfl
@[simp] theorem clearTable_table_trigPins : (clearTable s).table.trigPins = s.table.trigPins := rfl
@[simp] theorem clearTable_table_firedNow : (clearTable s).table.firedNow = s.table.firedNow := rfl
@[simp] theorem clearTable_table_firedOutputs : (clearTable s).table.firedOutputs = s.table.firedOutputs := rfl
@[simp] theorem clearTable_table_expiring : (clearTable s).table.expiring = s.table.expiring := rfl
@[simp] theorem clearTable_table_proposedNow : (clearTable s).table.proposedNow = s.table.proposedNow := rfl
@[simp] theorem clearTable_capture : (clearTable s).capture = s.capture := rfl
@[simp] theorem clearTable_reports : (clearTable s).reports = s.reports := rfl
@[simp] theorem clearTable_port : (clearTable s).port = s.port := rfl
@[simp] theorem clearTable_inForce : (clearTable s).inForce = s.inForce := rfl
@[simp] theorem clearTable_pending : (clearTable s).pending = s.pending := rfl

section

variable (st : TimeStep)

@[simp] theorem takeNotice_straps : (takeNotice st s).straps = s.straps := rfl
@[simp] theorem takeNotice_resetLow : (takeNotice st s).resetLow = s.resetLow := rfl
@[simp] theorem takeNotice_period : (takeNotice st s).period = s.period := rfl
@[simp] theorem takeNotice_pins : (takeNotice st s).pins = s.pins := rfl
@[simp] theorem takeNotice_line : (takeNotice st s).line = s.line := rfl
@[simp] theorem takeNotice_engine : (takeNotice st s).engine = s.engine := rfl
@[simp] theorem takeNotice_base_time : (takeNotice st s).base.time = s.base.time := rfl
@[simp] theorem takeNotice_base_fraction : (takeNotice st s).base.fraction = s.base.fraction := rfl
@[simp] theorem takeNotice_base_trim : (takeNotice st s).base.trim = s.base.trim := rfl
@[simp] theorem takeNotice_base_slew : (takeNotice st s).base.slew = s.base.slew := rfl
@[simp] theorem takeNotice_base_running : (takeNotice st s).base.running = s.base.running := rfl
@[simp] theorem takeNotice_base_latch : (takeNotice st s).base.latch = s.base.latch := rfl
@[simp] theorem takeNotice_base_pendingStep : (takeNotice st s).base.pendingStep = s.base.pendingStep := rfl
@[simp] theorem takeNotice_peers : (takeNotice st s).peers = s.peers := rfl
@[simp] theorem takeNotice_rounds : (takeNotice st s).rounds = s.rounds := rfl
@[simp] theorem takeNotice_ctl : (takeNotice st s).ctl = s.ctl := rfl
@[simp] theorem takeNotice_table : (takeNotice st s).table = s.table := rfl
@[simp] theorem takeNotice_capture : (takeNotice st s).capture = s.capture := rfl
@[simp] theorem takeNotice_reports : (takeNotice st s).reports = s.reports := rfl
@[simp] theorem takeNotice_port : (takeNotice st s).port = s.port := rfl
@[simp] theorem takeNotice_inForce : (takeNotice st s).inForce = s.inForce := rfl
@[simp] theorem takeNotice_pending : (takeNotice st s).pending = s.pending := rfl

end

section

variable (a : Int)

@[simp] theorem shiftLatch_straps : (shiftLatch a s).straps = s.straps := rfl
@[simp] theorem shiftLatch_resetLow : (shiftLatch a s).resetLow = s.resetLow := rfl
@[simp] theorem shiftLatch_period : (shiftLatch a s).period = s.period := rfl
@[simp] theorem shiftLatch_pins : (shiftLatch a s).pins = s.pins := rfl
@[simp] theorem shiftLatch_line : (shiftLatch a s).line = s.line := rfl
@[simp] theorem shiftLatch_engine : (shiftLatch a s).engine = s.engine := rfl
@[simp] theorem shiftLatch_base_time : (shiftLatch a s).base.time = s.base.time := rfl
@[simp] theorem shiftLatch_base_fraction : (shiftLatch a s).base.fraction = s.base.fraction := rfl
@[simp] theorem shiftLatch_base_trim : (shiftLatch a s).base.trim = s.base.trim := rfl
@[simp] theorem shiftLatch_base_slew : (shiftLatch a s).base.slew = s.base.slew := rfl
@[simp] theorem shiftLatch_base_running : (shiftLatch a s).base.running = s.base.running := rfl
@[simp] theorem shiftLatch_base_pendingStep : (shiftLatch a s).base.pendingStep = s.base.pendingStep := rfl
@[simp] theorem shiftLatch_base_notice : (shiftLatch a s).base.notice = s.base.notice := rfl
@[simp] theorem shiftLatch_peers : (shiftLatch a s).peers = s.peers := rfl
@[simp] theorem shiftLatch_rounds : (shiftLatch a s).rounds = s.rounds := rfl
@[simp] theorem shiftLatch_ctl : (shiftLatch a s).ctl = s.ctl := rfl
@[simp] theorem shiftLatch_table : (shiftLatch a s).table = s.table := rfl
@[simp] theorem shiftLatch_capture : (shiftLatch a s).capture = s.capture := rfl
@[simp] theorem shiftLatch_reports : (shiftLatch a s).reports = s.reports := rfl
@[simp] theorem shiftLatch_port : (shiftLatch a s).port = s.port := rfl
@[simp] theorem shiftLatch_inForce : (shiftLatch a s).inForce = s.inForce := rfl
@[simp] theorem shiftLatch_pending : (shiftLatch a s).pending = s.pending := rfl
@[simp] theorem shiftLatch_now : (shiftLatch a s).now = s.now := rfl
@[simp] theorem shiftLatch_own : (shiftLatch a s).own = s.own := rfl
@[simp] theorem shiftLatch_cfg : (shiftLatch a s).cfg = s.cfg := rfl
@[simp] theorem shiftLatch_bitTime : (shiftLatch a s).bitTime = s.bitTime := rfl
@[simp] theorem shiftLatch_members : (shiftLatch a s).members = s.members := rfl
@[simp] theorem shiftLatch_driverEnabled : (shiftLatch a s).driverEnabled = s.driverEnabled := rfl
@[simp] theorem shiftLatch_noticeDue : (shiftLatch a s).noticeDue = s.noticeDue := rfl
@[simp] theorem shiftLatch_peer (n : Station) : (shiftLatch a s).peer n = s.peer n := rfl
@[simp] theorem shiftLatch_output (c : Channel) : (shiftLatch a s).output c = s.output c := rfl
@[simp] theorem shiftLatch_entry (i : ActionId) : (shiftLatch a s).entry? i = s.entry? i := rfl

end

section

variable (a : Int)

@[simp] theorem shiftPulses_straps : (shiftPulses a s).straps = s.straps := rfl
@[simp] theorem shiftPulses_resetLow : (shiftPulses a s).resetLow = s.resetLow := rfl
@[simp] theorem shiftPulses_period : (shiftPulses a s).period = s.period := rfl
@[simp] theorem shiftPulses_pins : (shiftPulses a s).pins = s.pins := rfl
@[simp] theorem shiftPulses_line : (shiftPulses a s).line = s.line := rfl
@[simp] theorem shiftPulses_engine : (shiftPulses a s).engine = s.engine := rfl
@[simp] theorem shiftPulses_base : (shiftPulses a s).base = s.base := rfl
@[simp] theorem shiftPulses_peers : (shiftPulses a s).peers = s.peers := rfl
@[simp] theorem shiftPulses_rounds : (shiftPulses a s).rounds = s.rounds := rfl
@[simp] theorem shiftPulses_ctl : (shiftPulses a s).ctl = s.ctl := rfl
@[simp] theorem shiftPulses_table_entries : (shiftPulses a s).table.entries = s.table.entries := rfl
@[simp] theorem shiftPulses_table_trigPins : (shiftPulses a s).table.trigPins = s.table.trigPins := rfl
@[simp] theorem shiftPulses_table_firedNow : (shiftPulses a s).table.firedNow = s.table.firedNow := rfl
@[simp] theorem shiftPulses_table_firedOutputs : (shiftPulses a s).table.firedOutputs = s.table.firedOutputs := rfl
@[simp] theorem shiftPulses_table_expiring : (shiftPulses a s).table.expiring = s.table.expiring := rfl
@[simp] theorem shiftPulses_table_proposedNow : (shiftPulses a s).table.proposedNow = s.table.proposedNow := rfl
@[simp] theorem shiftPulses_capture : (shiftPulses a s).capture = s.capture := rfl
@[simp] theorem shiftPulses_reports : (shiftPulses a s).reports = s.reports := rfl
@[simp] theorem shiftPulses_port : (shiftPulses a s).port = s.port := rfl
@[simp] theorem shiftPulses_inForce : (shiftPulses a s).inForce = s.inForce := rfl
@[simp] theorem shiftPulses_pending : (shiftPulses a s).pending = s.pending := rfl

end

@[simp] theorem faultEntries_straps : (faultEntries s).straps = s.straps := rfl
@[simp] theorem faultEntries_resetLow : (faultEntries s).resetLow = s.resetLow := rfl
@[simp] theorem faultEntries_period : (faultEntries s).period = s.period := rfl
@[simp] theorem faultEntries_pins : (faultEntries s).pins = s.pins := rfl
@[simp] theorem faultEntries_line : (faultEntries s).line = s.line := rfl
@[simp] theorem faultEntries_engine : (faultEntries s).engine = s.engine := rfl
@[simp] theorem faultEntries_base : (faultEntries s).base = s.base := rfl
@[simp] theorem faultEntries_peers : (faultEntries s).peers = s.peers := rfl
@[simp] theorem faultEntries_rounds : (faultEntries s).rounds = s.rounds := rfl
@[simp] theorem faultEntries_ctl : (faultEntries s).ctl = s.ctl := rfl
@[simp] theorem faultEntries_table_outputs : (faultEntries s).table.outputs = s.table.outputs := rfl
@[simp] theorem faultEntries_table_trigPins : (faultEntries s).table.trigPins = s.table.trigPins := rfl
@[simp] theorem faultEntries_table_firedNow : (faultEntries s).table.firedNow = s.table.firedNow := rfl
@[simp] theorem faultEntries_table_firedOutputs : (faultEntries s).table.firedOutputs = s.table.firedOutputs := rfl
@[simp] theorem faultEntries_table_expiring : (faultEntries s).table.expiring = s.table.expiring := rfl
@[simp] theorem faultEntries_table_proposedNow : (faultEntries s).table.proposedNow = s.table.proposedNow := rfl
@[simp] theorem faultEntries_capture : (faultEntries s).capture = s.capture := rfl
@[simp] theorem faultEntries_reports : (faultEntries s).reports = s.reports := rfl
@[simp] theorem faultEntries_port : (faultEntries s).port = s.port := rfl
@[simp] theorem faultEntries_inForce : (faultEntries s).inForce = s.inForce := rfl
@[simp] theorem faultEntries_pending : (faultEntries s).pending = s.pending := rfl

@[simp] theorem clearMembers_straps : (clearMembers s).straps = s.straps := rfl
@[simp] theorem clearMembers_resetLow : (clearMembers s).resetLow = s.resetLow := rfl
@[simp] theorem clearMembers_period : (clearMembers s).period = s.period := rfl
@[simp] theorem clearMembers_pins : (clearMembers s).pins = s.pins := rfl
@[simp] theorem clearMembers_line : (clearMembers s).line = s.line := rfl
@[simp] theorem clearMembers_engine : (clearMembers s).engine = s.engine := rfl
@[simp] theorem clearMembers_base : (clearMembers s).base = s.base := rfl
@[simp] theorem clearMembers_rounds : (clearMembers s).rounds = s.rounds := rfl
@[simp] theorem clearMembers_ctl : (clearMembers s).ctl = s.ctl := rfl
@[simp] theorem clearMembers_table : (clearMembers s).table = s.table := rfl
@[simp] theorem clearMembers_capture : (clearMembers s).capture = s.capture := rfl
@[simp] theorem clearMembers_reports : (clearMembers s).reports = s.reports := rfl
@[simp] theorem clearMembers_port : (clearMembers s).port = s.port := rfl
@[simp] theorem clearMembers_inForce : (clearMembers s).inForce = s.inForce := rfl
@[simp] theorem clearMembers_pending : (clearMembers s).pending = s.pending := rfl
@[simp] theorem clearMembers_now : (clearMembers s).now = s.now := rfl
@[simp] theorem clearMembers_own : (clearMembers s).own = s.own := rfl
@[simp] theorem clearMembers_cfg : (clearMembers s).cfg = s.cfg := rfl
@[simp] theorem clearMembers_bitTime : (clearMembers s).bitTime = s.bitTime := rfl
@[simp] theorem clearMembers_driverEnabled : (clearMembers s).driverEnabled = s.driverEnabled := rfl
@[simp] theorem clearMembers_noticeDue : (clearMembers s).noticeDue = s.noticeDue := rfl
@[simp] theorem clearMembers_output (c : Channel) : (clearMembers s).output c = s.output c := rfl
@[simp] theorem clearMembers_entry (i : ActionId) : (clearMembers s).entry? i = s.entry? i := rfl

@[simp] theorem restoreQuiet_straps : (restoreQuiet s).straps = s.straps := rfl
@[simp] theorem restoreQuiet_resetLow : (restoreQuiet s).resetLow = s.resetLow := rfl
@[simp] theorem restoreQuiet_period : (restoreQuiet s).period = s.period := rfl
@[simp] theorem restoreQuiet_pins : (restoreQuiet s).pins = s.pins := rfl
@[simp] theorem restoreQuiet_line_stuckCount : (restoreQuiet s).line.stuckCount = s.line.stuckCount := rfl
@[simp] theorem restoreQuiet_line_edge : (restoreQuiet s).line.edge = s.line.edge := rfl
@[simp] theorem restoreQuiet_line_driver : (restoreQuiet s).line.driver = s.line.driver := rfl
@[simp] theorem restoreQuiet_line_reading : (restoreQuiet s).line.reading = s.line.reading := rfl
@[simp] theorem restoreQuiet_engine : (restoreQuiet s).engine = s.engine := rfl
@[simp] theorem restoreQuiet_base : (restoreQuiet s).base = s.base := rfl
@[simp] theorem restoreQuiet_peers : (restoreQuiet s).peers = s.peers := rfl
@[simp] theorem restoreQuiet_rounds : (restoreQuiet s).rounds = s.rounds := rfl
@[simp] theorem restoreQuiet_ctl : (restoreQuiet s).ctl = s.ctl := rfl
@[simp] theorem restoreQuiet_table : (restoreQuiet s).table = s.table := rfl
@[simp] theorem restoreQuiet_capture : (restoreQuiet s).capture = s.capture := rfl
@[simp] theorem restoreQuiet_reports : (restoreQuiet s).reports = s.reports := rfl
@[simp] theorem restoreQuiet_port : (restoreQuiet s).port = s.port := rfl
@[simp] theorem restoreQuiet_inForce : (restoreQuiet s).inForce = s.inForce := rfl
@[simp] theorem restoreQuiet_pending : (restoreQuiet s).pending = s.pending := rfl

@[simp] theorem haltBlocks_straps : (haltBlocks s).straps = s.straps := rfl
@[simp] theorem haltBlocks_resetLow : (haltBlocks s).resetLow = s.resetLow := rfl
@[simp] theorem haltBlocks_period : (haltBlocks s).period = s.period := rfl
@[simp] theorem haltBlocks_pins : (haltBlocks s).pins = s.pins := rfl
@[simp] theorem haltBlocks_line_edge : (haltBlocks s).line.edge = s.line.edge := rfl
@[simp] theorem haltBlocks_line_reading : (haltBlocks s).line.reading = s.line.reading := rfl
@[simp] theorem haltBlocks_engine_nextAge : (haltBlocks s).engine.nextAge = s.engine.nextAge := rfl
@[simp] theorem haltBlocks_engine_run : (haltBlocks s).engine.run = s.engine.run := rfl
@[simp] theorem haltBlocks_base_time : (haltBlocks s).base.time = s.base.time := rfl
@[simp] theorem haltBlocks_base_fraction : (haltBlocks s).base.fraction = s.base.fraction := rfl
@[simp] theorem haltBlocks_base_trim : (haltBlocks s).base.trim = s.base.trim := rfl
@[simp] theorem haltBlocks_base_notice : (haltBlocks s).base.notice = s.base.notice := rfl
@[simp] theorem haltBlocks_rounds_round : (haltBlocks s).rounds.round = s.rounds.round := rfl
@[simp] theorem haltBlocks_rounds_peered : (haltBlocks s).rounds.peered = s.rounds.peered := rfl
@[simp] theorem haltBlocks_rounds_lastCorrection : (haltBlocks s).rounds.lastCorrection = s.rounds.lastCorrection := rfl
@[simp] theorem haltBlocks_ctl_state : (haltBlocks s).ctl.state = s.ctl.state := rfl
@[simp] theorem haltBlocks_ctl_faultCause : (haltBlocks s).ctl.faultCause = s.ctl.faultCause := rfl
@[simp] theorem haltBlocks_ctl_seq : (haltBlocks s).ctl.seq = s.ctl.seq := rfl
@[simp] theorem haltBlocks_table_trigPins : (haltBlocks s).table.trigPins = s.table.trigPins := rfl
@[simp] theorem haltBlocks_table_firedNow : (haltBlocks s).table.firedNow = s.table.firedNow := rfl
@[simp] theorem haltBlocks_table_firedOutputs : (haltBlocks s).table.firedOutputs = s.table.firedOutputs := rfl
@[simp] theorem haltBlocks_table_expiring : (haltBlocks s).table.expiring = s.table.expiring := rfl
@[simp] theorem haltBlocks_table_proposedNow : (haltBlocks s).table.proposedNow = s.table.proposedNow := rfl
@[simp] theorem haltBlocks_reports : (haltBlocks s).reports = s.reports := rfl
@[simp] theorem haltBlocks_port : (haltBlocks s).port = s.port := rfl
@[simp] theorem haltBlocks_pending : (haltBlocks s).pending = s.pending := rfl

@[simp] theorem resetRounds_straps : (resetRounds s).straps = s.straps := rfl
@[simp] theorem resetRounds_resetLow : (resetRounds s).resetLow = s.resetLow := rfl
@[simp] theorem resetRounds_period : (resetRounds s).period = s.period := rfl
@[simp] theorem resetRounds_pins : (resetRounds s).pins = s.pins := rfl
@[simp] theorem resetRounds_line : (resetRounds s).line = s.line := rfl
@[simp] theorem resetRounds_engine_nextAge : (resetRounds s).engine.nextAge = s.engine.nextAge := rfl
@[simp] theorem resetRounds_engine_frame : (resetRounds s).engine.frame = s.engine.frame := rfl
@[simp] theorem resetRounds_engine_run : (resetRounds s).engine.run = s.engine.run := rfl
@[simp] theorem resetRounds_base : (resetRounds s).base = s.base := rfl
@[simp] theorem resetRounds_rounds_peered : (resetRounds s).rounds.peered = s.rounds.peered := rfl
@[simp] theorem resetRounds_rounds_lastCorrection : (resetRounds s).rounds.lastCorrection = s.rounds.lastCorrection := rfl
@[simp] theorem resetRounds_ctl : (resetRounds s).ctl = s.ctl := rfl
@[simp] theorem resetRounds_table : (resetRounds s).table = s.table := rfl
@[simp] theorem resetRounds_capture : (resetRounds s).capture = s.capture := rfl
@[simp] theorem resetRounds_reports : (resetRounds s).reports = s.reports := rfl
@[simp] theorem resetRounds_port : (resetRounds s).port = s.port := rfl
@[simp] theorem resetRounds_inForce : (resetRounds s).inForce = s.inForce := rfl
@[simp] theorem resetRounds_pending : (resetRounds s).pending = s.pending := rfl

@[simp] theorem faultBlocks_straps : (faultBlocks s).straps = s.straps := rfl
@[simp] theorem faultBlocks_resetLow : (faultBlocks s).resetLow = s.resetLow := rfl
@[simp] theorem faultBlocks_period : (faultBlocks s).period = s.period := rfl
@[simp] theorem faultBlocks_pins : (faultBlocks s).pins = s.pins := rfl
@[simp] theorem faultBlocks_engine_nextAge : (faultBlocks s).engine.nextAge = s.engine.nextAge := rfl
@[simp] theorem faultBlocks_engine_run : (faultBlocks s).engine.run = s.engine.run := rfl
@[simp] theorem faultBlocks_base_time : (faultBlocks s).base.time = s.base.time := rfl
@[simp] theorem faultBlocks_base_fraction : (faultBlocks s).base.fraction = s.base.fraction := rfl
@[simp] theorem faultBlocks_base_trim : (faultBlocks s).base.trim = s.base.trim := rfl
@[simp] theorem faultBlocks_base_running : (faultBlocks s).base.running = s.base.running := rfl
@[simp] theorem faultBlocks_base_pendingStep : (faultBlocks s).base.pendingStep = s.base.pendingStep := rfl
@[simp] theorem faultBlocks_base_notice : (faultBlocks s).base.notice = s.base.notice := rfl
@[simp] theorem faultBlocks_peers : (faultBlocks s).peers = s.peers := rfl
@[simp] theorem faultBlocks_rounds_round : (faultBlocks s).rounds.round = s.rounds.round := rfl
@[simp] theorem faultBlocks_rounds_samples : (faultBlocks s).rounds.samples = s.rounds.samples := rfl
@[simp] theorem faultBlocks_rounds_syncSent : (faultBlocks s).rounds.syncSent = s.rounds.syncSent := rfl
@[simp] theorem faultBlocks_rounds_joinRun : (faultBlocks s).rounds.joinRun = s.rounds.joinRun := rfl
@[simp] theorem faultBlocks_rounds_peered : (faultBlocks s).rounds.peered = s.rounds.peered := rfl
@[simp] theorem faultBlocks_rounds_lastCorrection : (faultBlocks s).rounds.lastCorrection = s.rounds.lastCorrection := rfl
@[simp] theorem faultBlocks_ctl_state : (faultBlocks s).ctl.state = s.ctl.state := rfl
@[simp] theorem faultBlocks_ctl_faultCause : (faultBlocks s).ctl.faultCause = s.ctl.faultCause := rfl
@[simp] theorem faultBlocks_ctl_leaveFailures : (faultBlocks s).ctl.leaveFailures = s.ctl.leaveFailures := rfl
@[simp] theorem faultBlocks_ctl_seq : (faultBlocks s).ctl.seq = s.ctl.seq := rfl
@[simp] theorem faultBlocks_table_outputs : (faultBlocks s).table.outputs = s.table.outputs := rfl
@[simp] theorem faultBlocks_table_trigPins : (faultBlocks s).table.trigPins = s.table.trigPins := rfl
@[simp] theorem faultBlocks_table_firedNow : (faultBlocks s).table.firedNow = s.table.firedNow := rfl
@[simp] theorem faultBlocks_table_firedOutputs : (faultBlocks s).table.firedOutputs = s.table.firedOutputs := rfl
@[simp] theorem faultBlocks_table_expiring : (faultBlocks s).table.expiring = s.table.expiring := rfl
@[simp] theorem faultBlocks_table_proposedNow : (faultBlocks s).table.proposedNow = s.table.proposedNow := rfl
@[simp] theorem faultBlocks_capture_sampled : (faultBlocks s).capture.sampled = s.capture.sampled := rfl
@[simp] theorem faultBlocks_capture_edges : (faultBlocks s).capture.edges = s.capture.edges := rfl
@[simp] theorem faultBlocks_capture_records : (faultBlocks s).capture.records = s.capture.records := rfl
@[simp] theorem faultBlocks_reports : (faultBlocks s).reports = s.reports := rfl
@[simp] theorem faultBlocks_port : (faultBlocks s).port = s.port := rfl
@[simp] theorem faultBlocks_inForce : (faultBlocks s).inForce = s.inForce := rfl
@[simp] theorem faultBlocks_pending : (faultBlocks s).pending = s.pending := rfl

section

variable (need : Need)

@[simp] theorem openTransmit_straps : (openTransmit need s).straps = s.straps := rfl
@[simp] theorem openTransmit_resetLow : (openTransmit need s).resetLow = s.resetLow := rfl
@[simp] theorem openTransmit_period : (openTransmit need s).period = s.period := rfl
@[simp] theorem openTransmit_pins : (openTransmit need s).pins = s.pins := rfl
@[simp] theorem openTransmit_line_condition : (openTransmit need s).line.condition = s.line.condition := rfl
@[simp] theorem openTransmit_line_quietCount : (openTransmit need s).line.quietCount = s.line.quietCount := rfl
@[simp] theorem openTransmit_line_stuckCount : (openTransmit need s).line.stuckCount = s.line.stuckCount := rfl
@[simp] theorem openTransmit_line_phase : (openTransmit need s).line.phase = s.line.phase := rfl
@[simp] theorem openTransmit_line_edge : (openTransmit need s).line.edge = s.line.edge := rfl
@[simp] theorem openTransmit_line_bitPos : (openTransmit need s).line.bitPos = s.line.bitPos := rfl
@[simp] theorem openTransmit_line_shift : (openTransmit need s).line.shift = s.line.shift := rfl
@[simp] theorem openTransmit_line_gapCount : (openTransmit need s).line.gapCount = s.line.gapCount := rfl
@[simp] theorem openTransmit_line_driver : (openTransmit need s).line.driver = s.line.driver := rfl
@[simp] theorem openTransmit_line_reading : (openTransmit need s).line.reading = s.line.reading := rfl
@[simp] theorem openTransmit_line_finding : (openTransmit need s).line.finding = s.line.finding := rfl
@[simp] theorem openTransmit_engine_needs : (openTransmit need s).engine.needs = s.engine.needs := rfl
@[simp] theorem openTransmit_engine_nextAge : (openTransmit need s).engine.nextAge = s.engine.nextAge := rfl
@[simp] theorem openTransmit_engine_run : (openTransmit need s).engine.run = s.engine.run := rfl
@[simp] theorem openTransmit_base : (openTransmit need s).base = s.base := rfl
@[simp] theorem openTransmit_peers : (openTransmit need s).peers = s.peers := rfl
@[simp] theorem openTransmit_rounds : (openTransmit need s).rounds = s.rounds := rfl
@[simp] theorem openTransmit_ctl : (openTransmit need s).ctl = s.ctl := rfl
@[simp] theorem openTransmit_table : (openTransmit need s).table = s.table := rfl
@[simp] theorem openTransmit_capture : (openTransmit need s).capture = s.capture := rfl
@[simp] theorem openTransmit_reports : (openTransmit need s).reports = s.reports := rfl
@[simp] theorem openTransmit_port : (openTransmit need s).port = s.port := rfl
@[simp] theorem openTransmit_inForce : (openTransmit need s).inForce = s.inForce := rfl
@[simp] theorem openTransmit_pending : (openTransmit need s).pending = s.pending := rfl

end

@[simp] theorem boundary_straps : (boundary s).straps = s.straps := rfl
@[simp] theorem boundary_resetLow : (boundary s).resetLow = s.resetLow := rfl
@[simp] theorem boundary_pins : (boundary s).pins = s.pins := rfl
@[simp] theorem boundary_line : (boundary s).line = s.line := rfl
@[simp] theorem boundary_engine : (boundary s).engine = s.engine := rfl
@[simp] theorem boundary_base_trim : (boundary s).base.trim = s.base.trim := rfl
@[simp] theorem boundary_base_slew : (boundary s).base.slew = s.base.slew := rfl
@[simp] theorem boundary_base_running : (boundary s).base.running = s.base.running := rfl
@[simp] theorem boundary_base_latch : (boundary s).base.latch = s.base.latch := rfl
@[simp] theorem boundary_peers : (boundary s).peers = s.peers := rfl
@[simp] theorem boundary_rounds : (boundary s).rounds = s.rounds := rfl
@[simp] theorem boundary_ctl : (boundary s).ctl = s.ctl := rfl
@[simp] theorem boundary_table_entries : (boundary s).table.entries = s.table.entries := rfl
@[simp] theorem boundary_table_outputs : (boundary s).table.outputs = s.table.outputs := rfl
@[simp] theorem boundary_capture : (boundary s).capture = s.capture := rfl
@[simp] theorem boundary_reports_records : (boundary s).reports.records = s.reports.records := rfl
@[simp] theorem boundary_port : (boundary s).port = s.port := rfl
@[simp] theorem boundary_inForce : (boundary s).inForce = s.inForce := rfl
@[simp] theorem boundary_pending : (boundary s).pending = s.pending := rfl

/-! ### New values -/

@[simp] theorem powerOn_straps (p : StrapPins) : (powerOn p s).straps = sampleStraps p := rfl
@[simp] theorem powerOn_resetLow (p : StrapPins) : (powerOn p s).resetLow = s.resetLow := rfl
@[simp] theorem powerOn_period (p : StrapPins) : (powerOn p s).period = s.period := rfl
@[simp] theorem powerOn_pins (p : StrapPins) : (powerOn p s).pins = s.pins := rfl
@[simp] theorem powerOn_pending (p : StrapPins) : (powerOn p s).pending = s.pending := rfl
@[simp] theorem powerOn_line (p : StrapPins) : (powerOn p s).line = State.reset.line := rfl
@[simp] theorem powerOn_engine (p : StrapPins) : (powerOn p s).engine = State.reset.engine := rfl
@[simp] theorem powerOn_base (p : StrapPins) : (powerOn p s).base = State.reset.base := rfl
@[simp] theorem powerOn_peers (p : StrapPins) : (powerOn p s).peers = State.reset.peers := rfl
@[simp] theorem powerOn_rounds (p : StrapPins) : (powerOn p s).rounds = State.reset.rounds := rfl
@[simp] theorem powerOn_ctl (p : StrapPins) : (powerOn p s).ctl = State.reset.ctl := rfl
@[simp] theorem powerOn_table (p : StrapPins) : (powerOn p s).table = State.reset.table := rfl
@[simp] theorem powerOn_capture (p : StrapPins) : (powerOn p s).capture = State.reset.capture := rfl
@[simp] theorem powerOn_reports (p : StrapPins) : (powerOn p s).reports = State.reset.reports := rfl
@[simp] theorem powerOn_port (p : StrapPins) : (powerOn p s).port = State.reset.port := rfl
@[simp] theorem powerOn_inForce (p : StrapPins) : (powerOn p s).inForce = State.reset.inForce := rfl
@[simp] theorem releaseReset_resetLow (p : StrapPins) : (releaseReset p s).resetLow = false := rfl

@[simp] theorem reply_port_result (st : Status) (d : List Byte) : (reply st d s).port.result = ⟨st, d⟩ := rfl
@[simp] theorem clearEnded_port_ended : (clearEnded s).port.ended = none := rfl
@[simp] theorem queueReport_records (k : ReportKind) :
    (queueReport k s).reports.records = joinQueue 32 Report.lose ⟨k, s.now, s.ctl.state, 0⟩ s.reports.records := rfl
@[simp] theorem moveState_state (new : StationState) (cause : MoveCause) : (moveState new cause s).ctl.state = new := rfl
@[simp] theorem moveState_records (new : StationState) (cause : MoveCause) :
    (moveState new cause s).reports.records =
      joinQueue 32 Report.lose ⟨.stateChanged s.ctl.state new cause, s.now, new, 0⟩ s.reports.records := rfl
@[simp] theorem withdrawNeed_needs (src : NeedSource) :
    (withdrawNeed src s).engine.needs = s.engine.needs.filter fun n => n.source != src := rfl
@[simp] theorem removeNeed_needs (need : Need) :
    (removeNeed need s).engine.needs = s.engine.needs.filter fun n => n.age != need.age := rfl
@[simp] theorem releaseDriver_driver : (releaseDriver s).line.driver = false := rfl
@[simp] theorem releaseDriver_pattern : (releaseDriver s).line.pattern = none := rfl
@[simp] theorem releaseOrder_pattern : (releaseOrder s).line.pattern = none := rfl
@[simp] theorem endFrame_frame : (endFrame s).engine.frame = none := rfl
@[simp] theorem endFrame_latch : (endFrame s).base.latch = none := rfl
@[simp] theorem endFrame_line_settled : (endFrame s).line = s.line.settled := rfl
@[simp] theorem clearFinding_finding : (clearFinding s).line.finding = none := rfl
@[simp] theorem giveUpSending_frame : (giveUpSending s).engine.frame = s.engine.frame.map Frame.asReceive := rfl
@[simp] theorem putEntry_entries (e : Entry) : (putEntry e s).table.entries = insertEntry e (dropEntry e.id s.table.entries) := rfl
@[simp] theorem removeEntry_entries (id : ActionId) : (removeEntry id s).table.entries = dropEntry id s.table.entries := rfl
@[simp] theorem removeEntry_needs (id : ActionId) :
    (removeEntry id s).engine.needs = s.engine.needs.filter fun n => n.source != .entry id := rfl
@[simp] theorem setPeer_peers_set (n : Station) (p : Peer) : (setPeer n p s).peers = s.peers.set n p := rfl
@[simp] theorem clearSamples_samples : (clearSamples s).rounds.samples = [] := rfl
@[simp] theorem zeroSlew_slew : (zeroSlew s).base.slew = 0 := rfl
@[simp] theorem setOutput_outputs (c : Channel) (o : Output) : (setOutput c o s).table.outputs = s.table.outputs.set c o := rfl
@[simp] theorem markFired_firedNow (e : Entry) : (markFired e s).table.firedNow = e.id :: s.table.firedNow := rfl
@[simp] theorem markFired_firedOutputs (e : Entry) : (markFired e s).table.firedOutputs = e.output :: s.table.firedOutputs := rfl
@[simp] theorem markProposed_proposedNow (id : ActionId) : (markProposed id s).table.proposedNow = id :: s.table.proposedNow := rfl
@[simp] theorem countFailure_run : (countFailure s).engine.run = min 16 (s.engine.run + 1) := rfl
@[simp] theorem dropLatch_latch : (dropLatch s).base.latch = none := rfl
@[simp] theorem idleRounds_active : (idleRounds s).rounds.active = false := rfl
@[simp] theorem idleRounds_windowOpen : (idleRounds s).rounds.windowOpen = false := rfl
@[simp] theorem drawSeq_seq : (drawSeq s).ctl.seq = s.nextSeq + 1 := rfl
@[simp] theorem joinCapture_records (r : CaptureRecord) :
    (joinCapture r s).capture.records = joinQueue 16 CaptureRecord.lose r s.capture.records := rfl
@[simp] theorem clearTable_entries : (clearTable s).table.entries = [] := rfl
@[simp] theorem clearTable_outputs : (clearTable s).table.outputs = idleOutputs s.cfg := rfl
@[simp] theorem takeNotice_notice (st : TimeStep) : (takeNotice st s).base.notice = some ⟨st, false⟩ := rfl
@[simp] theorem faultEntries_entries : (faultEntries s).table.entries = s.table.entries.filterMap Entry.afterFault := rfl
@[simp] theorem haltBlocks_entries : (haltBlocks s).table.entries = [] := rfl
@[simp] theorem haltBlocks_frame : (haltBlocks s).engine.frame = none := rfl
@[simp] theorem haltBlocks_needs : (haltBlocks s).engine.needs = [] := rfl
@[simp] theorem boundary_period : (boundary s).period = s.period + 1 := rfl
@[simp] theorem boundary_base_advance : (boundary s).base = s.base.advance := rfl
@[simp] theorem boundary_trigPins : (boundary s).table.trigPins = s.table.levels := rfl

end Sys2Proof.Machine
end

