-- ==== Sys2Proof/Laws/Ops.lean ====
section
/-! SUPPORT. One lemma for each shared operation that says once what it can do. -/

namespace Sys2Proof.Machine

/-! ### Bounded queues and reports -/

theorem onTail_length {α : Type} (f : α → α) (q : List α) : (onTail f q).length = q.length := by
  fun_induction onTail f q <;> simp_all

theorem onTail_append_singleton {α : Type} (f : α → α) (q : List α) (x : α) : onTail f (q ++ [x]) = q ++ [f x] := by
  induction q with
  | nil => rfl
  | cons a q ih => cases q <;> simp_all [onTail]

theorem mem_onTail {α : Type} {f : α → α} {q : List α} {x : α} (h : x ∈ onTail f q) : x ∈ q ∨ ∃ y ∈ q, x = f y := by
  fun_induction onTail f q <;> simp_all
  tauto

theorem joinQueue_length_le {α : Type} {limit : Nat} {lose : α → α} {x : α} {q : List α} (h : q.length ≤ limit) :
    (joinQueue limit lose x q).length ≤ limit := by
  unfold joinQueue
  split
  · simp; omega
  · rwa [onTail_length]

/-- What holds of every item, of the new one, and survives a loss holds behind a join. -/
theorem joinQueue_forall {α : Type} {P : α → Prop} {limit : Nat} {lose : α → α} {x : α} {q : List α} (hq : ∀ y ∈ q, P y) (hx : P x)
    (hl : ∀ y, P y → P (lose y)) : ∀ y ∈ joinQueue limit lose x q, P y := by
  intro y hy
  unfold joinQueue at hy
  split at hy
  · rcases List.mem_append.1 hy with hy | hy
    · exact hq y hy
    · simp at hy; exact hy ▸ hx
  · rcases mem_onTail hy with hy | ⟨z, hz, rfl⟩
    · exact hq y hy
    · exact hl z (hq z hz)

/-- Several reports change the report queue alone. -/
theorem queueReports_eq (ks : List ReportKind) (s : State) :
    queueReports ks s =
      { s with
        reports.records :=
          ks.foldl (fun q k => joinQueue 32 Report.lose ⟨k, s.now, s.ctl.state, 0⟩ q) s.reports.records } := by
  induction ks generalizing s with
  | nil => rfl
  | cons k ks ih => simp only [queueReports, List.foldl_cons] at ih ⊢; rw [ih]; rfl

/-! ### Needs -/

theorem raiseNeed_discarded {kind : FrameKind} {source : NeedSource} {s : State} (h : discardsNeed s.ctl.state kind = true) :
    raiseNeed kind source s = s := by simp [raiseNeed, h]

theorem raiseNeed_taken {kind : FrameKind} {source : NeedSource} {s : State} (h : discardsNeed s.ctl.state kind = false) :
    raiseNeed kind source s =
      { s with
        engine.needs := s.engine.needs.filter (fun n => n.source != source) ++ [⟨kind, source, s.engine.nextAge⟩]
        engine.nextAge := s.engine.nextAge + 1 } := by simp [raiseNeed, h]

/-- Raising a need changes the Frame Engine's needs and next age alone. -/
theorem raiseNeed_frame (kind : FrameKind) (source : NeedSource) (s : State) :
    ∃ needs age, raiseNeed kind source s = { s with engine.needs := needs, engine.nextAge := age } := by
  unfold raiseNeed
  split
  · exact ⟨s.engine.needs, s.engine.nextAge, rfl⟩
  · exact ⟨_, _, rfl⟩

theorem takesPart_keeps_needs {state : StationState} (h : state.takesPart = true) (kind : FrameKind) :
    discardsNeed state kind = false := by
  revert h; cases state <;> simp [StationState.takesPart, discardsNeed]

theorem takesPart_drives {state : StationState} (h : state.takesPart = true) : state.drives = true := by
  revert h; cases state <;> simp [StationState.takesPart, StationState.drives]

/-! ### The due list -/

theorem before_irrefl (e : Entry) : e.before e = false := by simp [Entry.before]

theorem before_trans {a b c : Entry} (h : a.before b = true) (h' : b.before c = true) : a.before c = true := by
  simp only [Entry.before, Bool.or_eq_true, Bool.and_eq_true, decide_eq_true_eq, beq_iff_eq, BitVec.lt_def, ← BitVec.toNat_inj,
    Fin.lt_def, Fin.ext_iff] at *
  omega

theorem before_total {a b : Entry} (h : a.id ≠ b.id) : a.before b = true ∨ b.before a = true := by
  have : a.id.owner ≠ b.id.owner ∨ a.id.seq ≠ b.id.seq := by
    by_contra hc
    push Not at hc
    exact h (by cases ha : a.id; cases hb : b.id; simp_all)
  simp only [Entry.before, Bool.or_eq_true, Bool.and_eq_true, decide_eq_true_eq, beq_iff_eq, BitVec.lt_def, ← BitVec.toNat_inj,
    Fin.lt_def, Fin.ext_iff, ne_eq] at *
  omega

theorem mem_insertEntry {e x : Entry} {entries : List Entry} : x ∈ insertEntry e entries ↔ x = e ∨ x ∈ entries := by
  induction entries with
  | nil => simp [insertEntry]
  | cons a rest ih => simp only [insertEntry]; split <;> simp [ih]; tauto

theorem insertEntry_length (e : Entry) (entries : List Entry) : (insertEntry e entries).length = entries.length + 1 := by
  induction entries with
  | nil => rfl
  | cons a rest ih => simp only [insertEntry]; split <;> simp [ih]

theorem mem_dropEntry {id : ActionId} {x : Entry} {entries : List Entry} : x ∈ dropEntry id entries ↔ x ∈ entries ∧ x.id ≠ id := by
  simp [dropEntry]

theorem dropEntry_sublist (id : ActionId) (entries : List Entry) : (dropEntry id entries).Sublist entries := List.filter_sublist

theorem entry?_id {s : State} {id : ActionId} {e : Entry} (h : s.entry? id = some e) : e.id = id := by
  have := List.find?_some h
  simpa using this

theorem entry?_mem {s : State} {id : ActionId} {e : Entry} (h : s.entry? id = some e) : e ∈ s.table.entries :=
  List.mem_of_find?_eq_some h

/-- An entry that is found leaves a place when its id is dropped. -/
theorem dropEntry_length_lt {s : State} {id : ActionId} {e : Entry} (h : s.entry? id = some e) :
    (dropEntry id s.table.entries).length < s.table.entries.length :=
  List.length_filter_lt_length_iff_exists.2 ⟨e, entry?_mem h, by simp [entry?_id h]⟩

/-! ### Peer entries -/

@[simp] theorem setPeer_same (n : Station) (p : Peer) (s : State) : (setPeer n p s).peer n = p := by
  simp [State.peer, setPeer]

theorem setPeer_other {n m : Station} (p : Peer) (s : State) (h : m ≠ n) : (setPeer n p s).peer m = s.peer m := by
  have : n.val ≠ m.val := fun hc => h (Fin.ext hc.symm)
  simp [State.peer, setPeer, this]

/-! ### The draw of a sequence -/

/-- A draw that finds a free value gives the first one from the counter on. -/
theorem freeSeq_first (used : List (BitVec 8)) (fuel : Nat) (c : BitVec 8) (h : ∃ k < fuel, c + BitVec.ofNat 8 k ∉ used) :
    freeSeq used fuel c ∉ used
      ∧ ∃ k < fuel, freeSeq used fuel c = c + BitVec.ofNat 8 k ∧ ∀ j < k, c + BitVec.ofNat 8 j ∈ used := by
  induction fuel generalizing c with
  | zero => omega
  | succ n ih =>
    obtain ⟨k, hk, hn⟩ := h
    by_cases hc : c ∈ used
    · simp only [freeSeq, List.contains_iff_mem, hc, if_true]
      obtain ⟨k, rfl⟩ : ∃ m, k = m + 1 := by
        cases k with
        | zero => simp at hn; exact absurd hc hn
        | succ k => exact ⟨k, rfl⟩
      have hs (j : Nat) : c + BitVec.ofNat 8 (j + 1) = c + 1 + BitVec.ofNat 8 j := by
        rw [show BitVec.ofNat 8 (j + 1) = BitVec.ofNat 8 j + 1 from by rw [BitVec.ofNat_add]; rfl]
        rw [BitVec.add_assoc, BitVec.add_comm (BitVec.ofNat 8 j)]
      obtain ⟨hfree, m, hm, heq, hbelow⟩ := ih (c + 1) ⟨k, by omega, by rw [← hs]; exact hn⟩
      refine ⟨hfree, m + 1, by omega, by rw [hs]; exact heq, ?_⟩
      intro j hj
      cases j with
      | zero => simpa using hc
      | succ j => rw [hs]; exact hbelow j (by omega)
    · simp only [freeSeq, List.contains_iff_mem, hc, if_false]
      exact ⟨by simp, 0, by omega, by simp, by intro j hj; omega⟩

/-! ### Bytes -/

theorem beBytes_length (k v : Nat) : (beBytes k v).length = k := by
  induction k with
  | zero => rfl
  | succ k ih => simp [beBytes, ih]

theorem beNat_append (a b : List Byte) : beNat (a ++ b) = beNat a * 256 ^ b.length + beNat b := by
  induction b using List.reverseRecOn generalizing a with
  | nil => simp [beNat]
  | append_singleton b x ih =>
    have h := ih a
    rw [← List.append_assoc]
    simp only [beNat, List.foldl_append, List.foldl_cons, List.foldl_nil, List.length_append, List.length_singleton] at *
    rw [h]; ring

/-- Bytes read back what was written into them, modulo their width. -/
theorem beNat_beBytes (k v : Nat) : beNat (beBytes k v) = v % 256 ^ k := by
  induction k with
  | zero => simp [beBytes, beNat]; omega
  | succ k ih =>
    rw [show beBytes (k + 1) v = [BitVec.ofNat 8 (v / 256 ^ k)] ++ beBytes k v from rfl, beNat_append, ih, beBytes_length]
    simp [beNat]
    rw [pow_succ, Nat.mod_mul]
    ring

/-- The argument bytes of PROPOSE and SCHEDULE decode to the fields they carry. -/
theorem decodeActionArgs_bytes (a : ActionArgs) (h1 : a.output < 256) (h2 : a.edge < 256) (h3 : a.mode < 256) :
    decodeActionArgs a.bytes = a := by
  have hb : a.bytes =
      byte1 a.output ++ (byte1 a.edge ++ (beBytes 2 a.width.toNat ++ (beBytes 8 a.due.toNat ++ (beBytes 4 a.period.toNat
        ++ (beBytes 2 a.count.toNat ++ byte1 a.mode))))) := by simp [ActionArgs.bytes]
  rw [hb]
  cases a with | mk o ed w du pe co mo =>
  simp only at h1 h2 h3 ⊢
  simp only [decodeActionArgs, field, byte1, beBytes, beNat]
  simp
  refine ⟨by omega, by omega, ?_, ?_, ?_, ?_, by omega⟩ <;> apply BitVec.eq_of_toNat_eq <;> simp
  · have := w.isLt; omega
  · have := du.isLt; omega
  · have := pe.isLt; omega
  · have := co.isLt; omega

theorem ofNat_field_zero (q : List Byte) : BitVec.ofNat 8 (field 0 1 q) = q.getD 0 0 := by
  cases q with
  | nil => rfl
  | cons a l => simp [field, beNat]

/-! ### Host commands -/

/-- A whole command of this row reaches its owner, with its argument bytes. -/
theorem takeCommand_holds {s : State} {code : Byte} {args filler : List Byte} (h : s.holds code args filler) {n : Nat}
    (hn : args.length = n) (owner : List Byte → State → State) : takeCommand code n owner s = owner args (clearEnded s) := by
  obtain ⟨h1, h2⟩ := h
  subst hn
  have : countRight args.length (args ++ filler) 0 = true := by simp [countRight]; exact h2
  simp [takeCommand, h1, this]

/-- The three answers of a judgement: the owner's, BAD_LENGTH, or none. -/
theorem takeCommand_cases (code : Byte) (n : Nat) (owner : List Byte → State → State) (s : State) :
    (∃ args, takeCommand code n owner s = owner args (clearEnded s))
      ∨ takeCommand code n owner s = reply .badLength [] (clearEnded s) ∨ takeCommand code n owner s = s := by
  unfold takeCommand
  split
  · split
    · split
      · exact .inl ⟨_, rfl⟩
      · exact .inr (.inl rfl)
    · exact .inr (.inr rfl)
  · exact .inr (.inr rfl)

/-! ### Cuts and failures -/

theorem cutByLine_receive {s : State} {f : Frame} (hf : s.engine.frame = some f) (hr : f.role = .receive) (o : FaultOrder) :
    cutByLine o s = endFrame s := by simp [cutByLine, hf, hr]

theorem cutByLine_transmit {s : State} {need : Need} {out : List Byte} {f : Frame} (h : s.sends need out f) (o : FaultOrder) :
    cutByLine o s = failOwn o need (endFrame s) := by simp [cutByLine, h.1, h.2]

/-- A failure of a need whose source stays as it is, below the limit of 16, raises the run and nothing else. -/
theorem failOwn_quiet {need : Need} {s : State} (h : s.failsQuietly need) (hr : s.engine.run < 15) (o : FaultOrder) :
    failOwn o need s = { s with engine.run := s.engine.run + 1 } := by
  have hc : countFailure s = { s with engine.run := s.engine.run + 1 } := by
    unfold countFailure; rw [Nat.min_eq_right (by omega)]
  have hre : reportFailed need (countFailure s) = countFailure s := by
    unfold reportFailed
    cases hs : need.source with
    | roundEngine => rfl
    | markQueue => rfl
    | controller => exact absurd hs h.1
    | entry id =>
      simp only [entryFailed]
      rw [show (countFailure s).entry? id = s.entry? id from rfl]
      cases hq : s.entry? id with
      | none => rfl
      | some e =>
        simp only [h.2 id e hs hq, Bool.and_false]
        split <;> rfl
  unfold failOwn faultAtLimit
  rw [hre, hc, if_neg]
  simp; omega

/-! ### Acceptance -/

theorem atAcceptance_eq {s : State} {f : Frame} (h : s.engine.frame = some f) :
    atAcceptance s =
      { s with
        engine.frame := some { f with checkPoint := true }
        line.finding := none } := by
  simp only [atAcceptance, markCheckPoint, h, Option.map_some]; rfl

/-- The acceptance instant of a frame that passes the test: the hand-over of its payload, and the end of the latch. -/
theorem acceptFrame_accepts {s : State} {kind : FrameKind} {f : Frame} {n : Station} (h : s.accepts kind f n) (o : FaultOrder)
    (take hear : Station → List Byte → State → State × Bool) :
    acceptFrame kind o take hear s = dropLatch (handOn (take n f.payload) (hear n f.payload) (atAcceptance s)) := by
  obtain ⟨h1, h2, h3, h4, h5⟩ := h
  have hp := h4
  unfold Frame.passes at hp
  split at hp
  · rename_i hc
    simp at hc
    have hd : f.isDuplicate s.own = false := by
      simp [Frame.isDuplicate, hp, hc.1.1]; exact h5
    simp only [acceptFrame, h1, h2]
    rw [if_pos ⟨h3, hc.1.2⟩]
    simp [hd, h4]
  · cases hp

theorem handOn_acked {s t : State} {take hear : State → State × Bool} (ht : s.ctl.state.takesPart = true) (hk : take s = (t, true)) :
    handOn take hear s = ackFrame t := by simp [handOn, ht, hk]

theorem handOn_unacked {s t : State} {take hear : State → State × Bool} (ht : s.ctl.state.takesPart = true)
    (hk : take s = (t, false)) : handOn take hear s = t := by simp [handOn, ht, hk]

theorem handOn_listen {s : State} {take hear : State → State × Bool} (h : s.ctl.state = .listen) :
    handOn take hear s = (hear s).1 := by simp [handOn, h, StationState.takesPart]

theorem ackFrame_atAcceptance {s : State} {f : Frame} (h : s.engine.frame = some f) :
    dropLatch (ackFrame (atAcceptance s)) = s.afterAcceptance f true := by
  rw [atAcceptance_eq h]
  simp only [ackFrame, dropLatch, State.afterAcceptance, Option.map_some, Bool.true_or, if_true]
  rfl

theorem dropLatch_atAcceptance {s : State} {f : Frame} (h : s.engine.frame = some f) :
    dropLatch (atAcceptance s) = s.afterAcceptance f false := by
  rw [atAcceptance_eq h]
  simp only [dropLatch, State.afterAcceptance, Bool.false_or]
  rfl

/-! ### Left notices and the latch -/

/-- The entries that a left notice prunes, by their states (R133, R149). -/
theorem prunes_iff {s : State} {e : Entry} :
    s.prunes e = true ↔
      e.scope = .shared ∧ e.role = .owner
        ∧ (e.state = .pending ∨ e.id ∈ s.table.proposedNow ∧ (e.state = .committing ∨ e.state = .cancelling)) := by
  simp [State.prunes, Entry.ownShared, and_assoc]

@[simp] theorem without_id (n : Station) (e : Entry) : (e.without n).id = e.id := rfl
@[simp] theorem without_state (n : Station) (e : Entry) : (e.without n).state = e.state := rfl
@[simp] theorem without_tries (n : Station) (e : Entry) : (e.without n).tries = e.tries := rfl
@[simp] theorem without_marks (n : Station) (e : Entry) : (e.without n).marks = e.marks := rfl
@[simp] theorem without_commitsByNotice (n : Station) (e : Entry) : (e.without n).commitsByNotice = e.commitsByNotice := rfl

theorem commitsByNotice_iff {e : Entry} :
    e.commitsByNotice = true ↔
      e.state = .pending ∧ 1 ≤ e.tries.getD 0 ∨ e.state = .cancelling ∧ e.marks = some ⟨.tries, false⟩ := by
  simp [Entry.commitsByNotice]

/-- A left notice at one entry: the commit of one whose set it completes, else the sets without the station. -/
theorem pruneEntry_cases (n : Station) (e : Entry) (s : State) :
    (e.commitsByNotice = true ∧ (e.without n).covered = true ∧ pruneEntry n e s = becomeCommitting (e.without n) s)
      ∨ ¬(e.commitsByNotice = true ∧ (e.without n).covered = true) ∧ pruneEntry n e s = putEntry (e.without n) s := by
  unfold pruneEntry
  by_cases h : e.commitsByNotice = true ∧ (e.without n).covered = true
  · exact .inl ⟨h.1, h.2, if_pos (by simp [h])⟩
  · exact .inr ⟨h, if_neg (by simpa using h)⟩

theorem leftNotice_unconcerned {s : State} {n : Station} (h : s.unconcerned n) : leftNotice n s = s := by
  have h1 : s.table.entries.filter s.prunes = [] :=
    List.filter_eq_nil_iff.2 fun e he => by simp [(h e he).1]
  have h2 : (s.table.entries.filter fun e => e.state == .held && e.id.owner == n) = [] :=
    List.filter_eq_nil_iff.2 fun e he => by simp [(h e he).2]
  simp only [leftNotice, protocolLeft, pruneRequired, h1, purgeOwner, List.foldl_nil, h2, dropHeld]

theorem latchFrameStart_sets {s : State} (h : s.ctl.state ≠ .off) (h' : s.ctl.state ≠ .fault) :
    latchFrameStart s = { s with base.latch := some ⟨s.stamp, s.period⟩ } := by
  unfold latchFrameStart
  cases hs : s.ctl.state <;> simp_all

/-! ### Events that wait for their conditions -/

theorem actionDue_cases (s : State) :
    (s.nextFiring = none ∧ actionDue s = s) ∨ ∃ e, s.nextFiring = some e ∧ actionDue s = fire s.forwardStepPeriod e s := by
  unfold actionDue
  cases h : s.nextFiring with
  | none => exact .inl ⟨rfl, rfl⟩
  | some e => exact .inr ⟨e, rfl, rfl⟩

theorem pulseEnded_fired {s : State} {c : Channel} (h : c ∈ s.table.firedOutputs) : s.pulseEnded c = s.output c := by
  simp [State.pulseEnded, h]

theorem pulseEnded_unfired {s : State} {c : Channel} (h : c ∉ s.table.firedOutputs) :
    s.pulseEnded c = (s.output c).endPulse s.now := by
  simp [State.pulseEnded, h]

theorem pulseEnd_cases (c : Channel) (s : State) :
    pulseEnd c s = s ∨ s.noticeDue = none ∧ pulseEnd c s = setOutput c (s.pulseEnded c) s := by
  unfold pulseEnd
  cases h : s.noticeDue with
  | none => exact .inr ⟨rfl, rfl⟩
  | some st => exact .inl rfl

theorem storeCopy_cases (e : Entry) (s : State) :
    (s.expires e.id = false ∧ storeCopy e s = putEntry e s)
      ∨ s.expires e.id = true ∧ storeCopy e s = putEntry e { s with table.expiring := e.id :: s.table.expiring } := by
  cases h : s.expires e.id <;> simp [storeCopy, h]

theorem deadlineEvent_cases (id : ActionId) (s : State) :
    deadlineEvent id s = s ∨ ∃ e, s.entry? id = some e ∧ s.deadlineDue e = true ∧ deadlineEvent id s = answerDeadline e s := by
  unfold deadlineEvent
  cases h : s.entry? id with
  | none => exact .inl rfl
  | some e =>
    by_cases hd : s.deadlineDue e = true
    · exact .inr ⟨e, rfl, hd, by simp [hd]⟩
    · exact .inl (by simp [hd])

theorem followUpDeadline_cases (id : ActionId) (s : State) :
    followUpDeadline id s = s
      ∨ ∃ e, s.entry? id = some e ∧ inFollowUp s.engine.needs e = true ∧ e.finalAwaited = false ∧ s.deadlineReached e = true
        ∧ followUpDeadline id s = if s.sending id [.commit] then putEntry { e with finalAwaited := true } s else endFollowUp e s := by
  unfold followUpDeadline
  cases h : s.entry? id with
  | none => exact .inl rfl
  | some e =>
    by_cases hd : (inFollowUp s.engine.needs e && !e.finalAwaited && s.deadlineReached e) = true
    · simp only [Bool.and_eq_true, Bool.not_eq_true'] at hd
      exact .inr ⟨e, rfl, hd.1.1, hd.1.2, hd.2, by simp [hd.1.1, hd.1.2, hd.2]⟩
    · exact .inl (by simp only [hd]; rfl)

theorem roundStart_cases (s : State) :
    roundStart s = s
      ∨ s.roundStartDue = true
        ∧ roundStart s =
          raiseNeed .sync .roundEngine
            { s with
              rounds.round := roundOf s.cfg s.now
              rounds.windowOpen := true
              rounds.syncSent := false } := by
  unfold roundStart; split
  · exact .inr ⟨‹_›, rfl⟩
  · exact .inl rfl

theorem roundClose_cases (o : CloseOrder) (s : State) :
    roundClose o s = s ∨ s.closeDue = true ∧ roundClose o s = closeRound o s := by
  unfold roundClose; split
  · exact .inr ⟨‹_›, rfl⟩
  · exact .inl rfl

theorem access_cases (s : State) :
    access s = s
      ∨ ∃ need, s.mayAccess = true ∧ selectNeed s.engine.needs = some need
        ∧ access s = latchFrameStart (openTransmit need (driveNow { s with line := s.line.beginCell s.period })) := by
  unfold access
  split
  · rename_i hm
    cases h : selectNeed s.engine.needs with
    | none => exact .inl rfl
    | some need => exact .inr ⟨need, hm, rfl, rfl⟩
  · exact .inl rfl

theorem captureEdge_cases (s : State) :
    captureEdge s = s
      ∨ ∃ i e, s.nextEdge = some (i, e)
        ∧ captureEdge s =
          if s.ctl.state.captures then recordEdge i e { s with capture.edges := s.capture.edges.set i none }
          else { s with capture.edges := s.capture.edges.set i none } := by
  unfold captureEdge
  cases h : s.nextEdge with
  | none => exact .inl rfl
  | some p => exact .inr ⟨p.1, p.2, rfl, rfl⟩

end Sys2Proof.Machine
end

