-- ==== Sys2Proof/WellFormed.lean ====
section
/-! DEFINITION. Which commands the outside can give: the checks on a command's operands. -/

namespace Sys2Proof

/-- The edges of one period hold no fall of CS_N after a rise: "the taking of a command is read in an earlier period than
the next transaction's fall" (R168). -/
def spiOrdered : List SpiEdge → Bool
  | [] => true
  | .csRise :: rest => !rest.contains .csFall && !rest.contains .csRise
  | _ :: rest => spiOrdered rest

/-- A close's order names each station at most once. -/
def CloseOrder.wf (o : CloseOrder) : Bool := decide o.stations.Nodup

/-- Well-formed commands. Every row but ROUND_CLOSE and COMMON_TIME_ADVANCE is well formed with every operand. -/
def Instr.wf : Instr → Bool
  | .roundClose o => o.wf
  | .commonTimeAdvance p => spiOrdered p.spi
  | .powerOnReset _ => true
  | .resetN _ => true
  | .badCommand => true
  | .nop => true
  | .configure => true
  | .start => true
  | .stop => true
  | .leave => true
  | .readTime => true
  | .readStatus => true
  | .readPeer => true
  | .readAction => true
  | .propose => true
  | .schedule => true
  | .cancel => true
  | .takeReport => true
  | .takeCapture => true
  | .lineQuiet => true
  | .lineStuck _ => true
  | .access => true
  | .frameStart => true
  | .falseStart _ => true
  | .stopError _ => true
  | .gapExpiry _ => true
  | .arbitrationLost => true
  | .collision _ => true
  | .driverFailure _ => true
  | .checkComplete => true
  | .frameCompleted => true
  | .syncAccepted _ => true
  | .leaveAccepted _ => true
  | .proposeAccepted _ => true
  | .commitAccepted _ => true
  | .cancelAccepted _ => true
  | .markAccepted _ => true
  | .listenTimeout => true
  | .roundStart => true
  | .stepNotice _ => true
  | .actionDue => true
  | .pulseEnd _ => true
  | .deadlineEvent _ => true
  | .followUpDeadline _ => true
  | .captureEdge => true
  | .resetNAsserted => true
  | .receivedFrameEnd => true
  | .lengthAbove24 => true

end Sys2Proof
end

