-- ==== Sys2Proof/Tests/Slice0.lean ====
section
/-! SUPPORT. Tests: the well-formedness checks, the rows one step at a time, and a witness for the hypotheses of every statement.
Expected values are the spec's worked examples and tables, or worked by hand from its rules. -/

namespace Sys2Proof.Tests

open Sys2Proof Sys2Proof.Machine

set_option maxRecDepth 20000
set_option Elab.async false

/-! ### Small states -/

/-- Ten seconds, the common time of the states below. -/
def tenSec : Time := 10000000000

/-- A station that has been started and stands in a state: class A, the default record, a quiet line in HUNT. -/
def station (st : StationState) : State :=
  { State.reset with
    inForce := some ConfigRecord.default
    line := { Line.idleLine with phase := .hunt, condition := .quiet }
    base := ⟨tenSec, 0, 0, 0, true, none, none, none⟩
    ctl := ⟨st, .noFault, none, 0, 0⟩
    capture := ⟨Vector.replicate 4 (some false), Vector.replicate 4 none, [], []⟩
    rounds := ⟨st.takesPart, 100, false, [], false, 0, false, 0⟩ }

/-- The state with a transaction of whole bytes that the period's rise of CS_N has ended. -/
def commanded (bytes : List Byte) (s : State) : State := { s with port.ended := some (bytes.flatMap byteBits) }

/-- The state with a finding of the period. -/
def found (f : Finding) (s : State) : State := { s with line.phase := .cell, line.condition := .active, line.finding := some f }

/-- The state with a frame in flight. -/
def flying (f : Frame) (s : State) : State := { s with engine.frame := some f }

/-- A frame that carries a payload whole, with its check. -/
def wholeFrame (kind : FrameKind) (sender : Station) (payload : List Byte) : Frame :=
  let out := kind.code :: BitVec.ofNat 8 sender.val :: BitVec.ofNat 8 payload.length :: payload
  (out ++ [highByte (crc16 out), lowByte (crc16 out)]).foldl (fun f b => f.addCell b 0) (Frame.opened .receive)

/-- The acceptance instant of a frame from another station. -/
def accepting (kind : FrameKind) (sender : Station) (payload : List Byte) (s : State) : State :=
  found .acceptance (flying (wholeFrame kind sender payload) s)

/-- A transmit frame of a need with cells already sent. -/
def sentFrame (need : Need) (cells : List (Byte × Nat)) : Frame := ⟨.transmit need [], cells, crcInit, false, 0, false⟩

/-- A state that sends a frame of a need, which its list holds. -/
def sending (need : Need) (cells : List (Byte × Nat)) (s : State) : State :=
  flying (sentFrame need cells) { s with engine.needs := [need], engine.nextAge := need.age + 1 }

/-- An entry of station 0: SHARED, owner, RISE on TRIG0, one occurrence, with sequence `q`. -/
def ownEntry (q : BitVec 8) (st : EntryState) (due : Time) : Entry :=
  { id := ⟨0, q⟩, scope := .shared, role := .owner, state := st, output := 0, edge := .rise, width := none, due, period := 0,
    count := 1, fired := 0, skipped := 0, mode := .each, required := some 6, acked := some 0, armedSet := none, tries := some 0,
    marks := none, finalAwaited := false }

/-- A LOCAL entry of station 0. -/
def localEntry (q : BitVec 8) (due : Time) : Entry :=
  { ownEntry q .armed due with scope := .loc, required := none, acked := none, tries := none }

/-- A member copy of station 3's proposal. -/
def copyEntry (q : BitVec 8) (st : EntryState) (due : Time) : Entry :=
  { ownEntry q st due with id := ⟨3, q⟩, role := .member, required := none, acked := none, tries := none }

/-- The state with a table. -/
def holding (entries : List Entry) (s : State) : State := { s with table.entries := entries }

/-- `n` LOCAL entries, a second ahead. -/
def locals (n : Nat) : List Entry := (List.range n).map fun k => localEntry (BitVec.ofNat 8 k) (tenSec + 1000000000)

/-- `n` copies of station 3's proposals, a second ahead. -/
def copies (n : Nat) : List Entry := (List.range n).map fun k => copyEntry (BitVec.ofNat 8 k) .held (tenSec + 1000000000)

/-- A member of the Peer Table. -/
def memberPeer : Peer := ⟨true, some .synced, true, false, some 100, none, some 2, some 0, 0, 0, 0, false⟩

/-- A suspect of the Peer Table. -/
def suspectPeer : Peer := { memberPeer with member := false, suspect := true, outlierRun := 4 }

/-- Due at which the deadline falls exactly on the present (margin 5 ms). -/
def atDeadline : Time := tenSec + 5000000

/-- The action arguments of a rise on TRIG0 at a time. -/
def riseAt (due : Time) : ActionArgs := ⟨0, 0, 0, due, 0, 1, 0⟩

/-- The state behind a command, as one record. -/
def after (i : Instr) (s : State) : State :=
  match exec i s with
  | .next t => t
  | .fault _ => s
  | .refused _ => s

/-! ### The checks on a command's operands (WellFormed) -/

theorem test_wf_refuses_repeated_station : Instr.wf (.roundClose ⟨[3, 5, 3], .noticesDiscardMove⟩) = false := by decide

theorem test_wf_takes_distinct_stations : Instr.wf (.roundClose ⟨[3, 5], .noticesDiscardMove⟩) = true := by decide

theorem test_wf_refuses_fall_behind_rise : Instr.wf (.commonTimeAdvance ⟨.recessive, false, 0, [.csRise, .csFall]⟩) = false := by
  decide

theorem test_wf_refuses_second_rise : Instr.wf (.commonTimeAdvance ⟨.recessive, false, 0, [.csRise, .csRise]⟩) = false := by decide

theorem test_no_word_spells_a_command : decodeTableWord 16 0x1234 = none ∧ State.reset.withFetchWord 16 0x1234 = State.reset := by
  decide

/-! ### Worked examples of the spec -/

/-- R19: the check value over the nine cells "123456789" is 0x29B1. -/
theorem test_check_value : crc16 [0x31, 0x32, 0x33, 0x34, 0x35, 0x36, 0x37, 0x38, 0x39] = 0x29B1 := by decide

/-- R81: the table of corrections. -/
theorem test_corrections :
    correction [-75] = -37 ∧ correction [40, 50] = 30 ∧ correction [10, 60, 900] = 35 ∧ correction [-20, 5, 30, 45, -400] = 3 := by
  decide

/-- R83: a quarter of +1,350 ppb is +337, of -1,350 ppb -337. -/
theorem test_quarter : (1350 : Int).tdiv 4 = 337 ∧ (-1350 : Int).tdiv 4 = -337 := by decide

/-- R3, R4: the bit times in REFCLK periods, and R10's sample instants of bit 0. -/
theorem test_bit_times :
    bitTime .a = 100 ∧ bitTime .b = 25 ∧ bitTime .c = 10 ∧ sampleOffset 100 0 = 50 ∧ sampleOffset 25 0 = 12 ∧ sampleOffset 10 0 = 5 := by
  decide

/-- R14: the pattern of 0x11 drives the start bit and the zeros, most significant first. -/
theorem test_pattern : bytePattern 0x11 = 0b0011101111#10 := by decide

/-- R42: without trim and slew a period is 40 ns; +500,000 ppb adds 20,000,000 units of 10^-9 ns. -/
theorem test_increment :
    (TimeBase.increment ⟨0, 0, 0, 0, true, none, none, none⟩) = 40000000000
      ∧ (TimeBase.increment ⟨0, 0, 0, 500000, true, none, none, none⟩) = 40020000000 := by decide

/-! ### The rows, one step each -/

/-- R3: STN 1111 and SPD 01 are station 15 of class B. -/
theorem test_power_on_straps : (after (.powerOnReset ⟨0xF, 1⟩) (station .fault)).straps = ⟨15, .b⟩ := by decide

/-- R3: SPD 11 is invalid; R93: the station is in OFF. -/
theorem test_reset_release : let t := after (.resetN ⟨0, 3⟩) (station .synced)
    t.straps.speed = .invalid ∧ t.ctl.state = .off := by decide

/-- R167: a power-on reset while RESET_N is low leaves it low, and a fall of CS_N begins no transaction; the release ends that. -/
theorem test_power_on_while_reset_is_low :
    let s := after (.powerOnReset ⟨0, 0⟩) (after .resetNAsserted (station .synced))
    (after (.commonTimeAdvance ⟨.recessive, false, 0, [.csFall]⟩) s).port.transaction = none
      ∧ (after (.commonTimeAdvance ⟨.recessive, false, 0, [.csFall]⟩) (after (.resetN ⟨0, 0⟩) s)).port.transaction = some [] := by decide

/-- R167: a transaction in progress is abandoned. -/
theorem test_reset_abandons_transaction :
    (after .resetNAsserted { station .synced with port.transaction := some [true] }).port.transaction = none := by decide

/-- R169: code 0x05 is no command. -/
theorem test_bad_command : (after .badCommand (commanded [0x05] (station .synced))).port.result = ⟨.badCommand, []⟩ := by decide

/-- R170: the result of READ_TIME stays behind a NOP. -/
theorem test_nop_keeps_result :
    (after .nop (commanded [0x00, 0xFF] (after .readTime (commanded [0x10] (station .synced))))).port.result.data =
      [0, 0, 0, 2, 0x54, 0x0B, 0xE4, 0, 3, 0, 0, 0, 0, 0, 0, 0, 0] := by decide

/-- R173: in class A a round of 20 ms is invalid. -/
theorem test_configure_class_a :
    let c := { ConfigRecord.default with roundCode := 1 }
    (after .configure (commanded (0x01 :: c.bytes) State.reset)).port.result.status = .badConfig := by decide

/-- R95: the initial time is common time of the period. -/
theorem test_start_time :
    let t := after .start (commanded [0x02, 0, 0, 0, 0, 0, 0, 1, 0] State.reset)
    t.base.time = 256 ∧ t.ctl.state = .listen := by decide

/-- R105: STOP in OFF is refused. -/
theorem test_stop_in_off : (after .stop (commanded [0x03] State.reset)).port.result.status = .badState := by decide

/-- R102: one LEAVE need stands in LEAVING. -/
theorem test_leave : (after .leave (commanded [0x04] (station .synced))).engine.needs.map Need.kind = [.leave] := by decide

/-- R176, 12.3: the state code first, the fault cause, the number, the class. -/
theorem test_read_status :
    ((after .readStatus (commanded [0x11] (station .holdover))).port.result.data.take 4) = [4, 0, 0, 0] := by decide

/-- R171: station 16 is no station. -/
theorem test_read_peer : (after .readPeer (commanded [0x12, 16] (station .synced))).port.result.status = .badArg := by decide

/-- R129: an index behind the table gives EMPTY and the number of entries. -/
theorem test_read_action :
    (after .readAction (commanded [0x13, 1] (holding (locals 1) (station .synced)))).port.result = ⟨.empty, [1]⟩ := by decide

/-- R130: twice the margin of 5 ms is soon enough, and the id is (0, 0). -/
theorem test_propose :
    let t := after .propose (commanded (0x20 :: (riseAt (tenSec + 10000000)).bytes) (station .synced))
    t.port.result = ⟨.ok, [0, 0]⟩ ∧ t.table.entries.map Entry.state = [.pending] := by decide

/-- R117: a due of now is too soon. -/
theorem test_schedule_now :
    (after .schedule (commanded (0x21 :: (riseAt tenSec).bytes) (station .synced))).port.result.status = .tooSoon := by decide

/-- R142: another station's id. -/
theorem test_cancel_other : (after .cancel (commanded [0x22, 1, 0] (station .synced))).port.result.status = .notOwner := by decide

/-- R163: the report record of RATE_LIMIT, 26 bytes. -/
theorem test_take_report :
    (after .takeReport (commanded [0x30] (queueReport .rateLimit (station .synced)))).port.result.data =
      [3, 0, 0, 0, 2, 0x54, 0x0B, 0xE4, 0, 3, 0] ++ List.replicate 15 0 := by decide

/-- R156: an empty queue. -/
theorem test_take_capture : (after .takeCapture (commanded [0x31] (station .synced))).port.result = ⟨.empty, []⟩ := by decide

/-- R6, R8: 1,200 recessive periods in class A. -/
theorem test_line_quiet :
    let s : State := { station .listen with line := { Line.idleLine with phase := .settle, quietCount := 1200 } }
    (after .lineQuiet s).line.phase = .hunt ∧ (after .lineQuiet { s with line.quietCount := 1199 }).line.phase = .settle := by decide

/-- R7: 2,400 dominant periods in class A. -/
theorem test_line_stuck :
    let s : State := { station .synced with line := { Line.idleLine with phase := .settle, stuckCount := 2400 } }
    (after (.lineStuck .stateFirst) s).line.condition = .stuck := by decide

/-- R25: the start edge of cell 0 is driven in the period of access. -/
theorem test_access :
    let t := after .access { station .synced with engine := ⟨[⟨.leave, .controller, 4⟩], 5, none, 0⟩ }
    t.line.driver = true ∧ t.line.pattern = some (bytePattern 0x5A) := by decide

/-- R50: the latch is common time less 80 ns. -/
theorem test_frame_start : (after .frameStart (found .frameStart (station .listen))).base.latch = some ⟨9999999920, 0⟩ := by decide

/-- R10: a false start of a first cell gives back the QUIET line. -/
theorem test_false_start :
    (after (.falseStart .stateFirst) (found (.falseStart false) (flying (Frame.opened .receive) (station .listen)))).line.condition = .quiet := by
  decide

/-- R37: stop errors and gap expiries of an own frame are failures. -/
theorem test_cuts :
    let s := sending ⟨.sync, .roundEngine, 4⟩ [(0x11, 0)] (station .synced)
    (after (.stopError .stateFirst) (found .stopError s)).engine.run = 1
      ∧ (after (.gapExpiry .stateFirst) (found .gapExpired s)).engine.run = 1 := by decide

/-- R28: a lost arbitration is no failure; R35 and R36: collisions and driver failures are. -/
theorem test_readback :
    let s := sending ⟨.sync, .roundEngine, 4⟩ [(0x11, 0)] (station .synced)
    (after .arbitrationLost (found .lostBit s)).engine.run = 0
      ∧ (after (.collision .stateFirst) (found .collidedBit s)).engine.run = 1
      ∧ (after (.driverFailure .stateFirst) (found .deadBit s)).engine.run = 1 := by decide

/-- R34: the check point. -/
theorem test_check_complete :
    (after .checkComplete (found .ownCheckDone (sending ⟨.leave, .controller, 4⟩ [] (station .leaving)))).engine.frame.map
      Frame.checkPoint = some true := by decide

/-- R103: a completed LEAVE ends in OFF. -/
theorem test_frame_completed :
    (after .frameCompleted (found .ownFrameDone (sending ⟨.leave, .controller, 4⟩ [] (station .leaving)))).ctl.state = .off := by decide

/-- R29, R63: an accepted LEAVE empties the entry of its sender. -/
theorem test_leave_accepted :
    (after (.leaveAccepted .stateFirst) (accepting .leave 3 [] { station .synced with peers := State.reset.peers.set 3 memberPeer })).peers =
      State.reset.peers := by decide +kernel

/-- R40: a LEAVE from the own number is a duplicate. -/
theorem test_duplicate :
    (after (.leaveAccepted .stateFirst) (accepting .leave 0 [] (station .synced))).ctl.faultCause = .duplicate := by decide +kernel

/-- R139: a CANCEL without a copy is acked, in the slot of station 0. -/
theorem test_cancel_accepted :
    (after (.cancelAccepted .stateFirst) (accepting .cancel 3 [7] (station .synced))).line.pattern = some 0b10 := by decide +kernel

/-- R138: a COMMIT without a copy is not acked. -/
theorem test_commit_accepted :
    (after (.commitAccepted .stateFirst) (accepting .commit 3 [7, 0, 1] (station .synced))).line.pattern = none := by decide +kernel

/-- R137: a proposal of a station that is no member makes no copy. -/
theorem test_propose_accepted :
    (after (.proposeAccepted .stateFirst)
      (accepting .propose 3 (proposePayload (copyEntry 7 .held (tenSec + 1000000000))) (station .synced))).table.entries = [] := by
  decide +kernel

/-- R155: a mark of station 3 makes a remote record. -/
theorem test_mark_accepted :
    (after (.markAccepted .stateFirst) (accepting .mark 3 [2, 6, 0, 0, 0, 0, 0, 0, 0, 9] (station .synced))).capture.records =
      [⟨.remote 3, 2, .fall, 9, true, false, false, 0⟩] := by decide +kernel

/-- R29: both ends settle the line. -/
theorem test_frame_ends :
    (after .receivedFrameEnd (found .receivedDone (station .listen))).line.phase = .settle
      ∧ (after .lengthAbove24 (found .tooLong (station .listen))).line.phase = .settle := by decide

/-- R97: 3 × 100 ms and one ns less. -/
theorem test_listen_timeout :
    (after .listenTimeout { station .listen with ctl.listenTimer := some (tenSec - 300000000) }).ctl.state = .synced
      ∧ (after .listenTimeout { station .listen with ctl.listenTimer := some (tenSec - 299999999) }).ctl.state = .listen := by decide

/-- R73: the round of 10 s is 100. -/
theorem test_round_start : (after .roundStart { station .synced with rounds.round := 99 }).rounds.round = 100 := by decide

/-- R77: a backward step out of the round resets it on the stepped time. -/
theorem test_step_notice :
    (after (.stepNotice true) { station .synced with base.notice := some ⟨⟨-5, .merge⟩, true⟩, rounds.round := 101 }).rounds.round = 100 := by
  decide

/-- R116, R119: a rise that is due now; R118: its report. -/
theorem test_action_due :
    let t := after .actionDue (holding [localEntry 1 tenSec] (station .synced))
    t.table.outputs[0] = ⟨true, none⟩ ∧ t.reports.records.map Report.kind =
      [.actionFired ⟨0, 1⟩ 1 0 ⟨false, false, false⟩ 0, .actionDone ⟨0, 1⟩] := by decide

/-- R120: a pulse end one ns ahead leaves the output. -/
theorem test_pulse_end :
    let s := setOutput 2 ⟨true, some (tenSec + 1)⟩ (station .synced)
    (after (.pulseEnd 2) s).table.outputs[2] = ⟨true, some (tenSec + 1)⟩ := by decide

/-- R120: a pulse of 10 µs that starts 2,980 ns before the end of the scale ends at 7,020; the firing period does not end it. -/
theorem test_pulse_end_across_the_wrap :
    let e : Entry := { localEntry 1 (0 - 2980) with edge := .pulse, width := some 100 }
    let t := after .actionDue { holding [e] (station .synced) with base.time := 0 - 2980 }
    t.table.outputs[0] = ⟨true, some 7020⟩ ∧ (after (.pulseEnd 0) t).table.outputs[0] = ⟨true, some 7020⟩ := by decide

/-- R140: a HELD copy at its deadline. -/
theorem test_deadline :
    (after (.deadlineEvent ⟨3, 7⟩) (holding [copyEntry 7 .held atDeadline] (station .synced))).table.entries = [] := by decide

/-- R135: a follow-up whose deadline comes with no COMMIT in flight ends with ACTION_ARMED and COMMIT_INCOMPLETE. -/
theorem test_follow_up_deadline :
    let e : Entry := { ownEntry 7 .armed atDeadline with armedSet := some 6 }
    let s : State := { holding [e] (station .synced) with engine.needs := [⟨.commit, .entry ⟨0, 7⟩, 1⟩] }
    (after (.followUpDeadline ⟨0, 7⟩) s).reports.records.map Report.kind = [.actionArmed ⟨0, 7⟩ 6, .commitIncomplete ⟨0, 7⟩ 6] := by
  decide

/-- R151: UNSYNCED in LISTEN, and the stamp of R50. -/
theorem test_capture_edge :
    (after .captureEdge { station .listen with capture.edges := State.reset.capture.edges.set 1 (some .fall) }).capture.records =
      [⟨.loc, 1, .fall, 9999999920, true, false, false, 0⟩] := by decide

/-- R42: 40 ns a period; R150: a rise on CAP0 is found. -/
theorem test_advance :
    let t := after (.commonTimeAdvance ⟨.recessive, false, 1, []⟩) (station .synced)
    t.base.time = 10000000040 ∧ t.capture.edges[0] = some .rise := by decide

/-! ### Witnesses: the queue, the transactions, the host commands -/

theorem witness_StepRunsTheFrontCommand :
    ({ State.reset with pending := [.stop, .nop] } : State).pending = .stop :: [.nop] ∧ State.reset.pending = [] := by decide

theorem witness_SpiTransactionIsRead : State.reset.port.transaction = none ∧ [true, false, true, true, false, true, true].length < 8 := by
  decide

/-- The codes next to the table's, an argument short, a filler byte that is not 0xFF, a bit too many, and no transaction at all. -/
theorem witness_TransactionsAreJudged :
    ((commanded [0x05] State.reset).command = some ([0x05], 0) ∧ (commanded [0x32, 0xFF] State.reset).command = some ([0x32, 0xFF], 0))
      ∧ ((commanded [0x12] State.reset).command = some ([0x12], 0)
        ∧ ∀ args filler : List Byte, [] = args ++ filler → args.length = 1 → (∀ b ∈ filler, b = 0xFF) → 0 ≠ 0)
      ∧ ((commanded [0x03, 0xFE] State.reset).command = some ([0x03, 0xFE], 0)
        ∧ ∀ args filler : List Byte, [0xFE] = args ++ filler → args.length = 0 → (∀ b ∈ filler, b = 0xFF) → 0 ≠ 0)
      ∧ (({ State.reset with port.ended := some (byteBits 0x00 ++ [true]) } : State).command = some ([0x00], 1) ∧ 1 ≠ 0)
      ∧ (∀ rest stray, State.reset.command ≠ some (0x03 :: rest, stray)) := by
  refine ⟨⟨by decide, by decide⟩, ⟨by decide, ?_⟩, ⟨by decide, ?_⟩, ⟨by decide, by decide⟩, ?_⟩
  · intro args filler h h1; simp at h; simp [h.1] at h1
  · intro args filler h h1 h2
    have : args = [] := List.length_eq_zero_iff.1 h1
    subst this; simp at h; subst h; simp at h2
  · intro rest stray; simp [State.command, State.reset]

/-- Filler of two bytes, the highest station and the byte behind it, the last place of the table, the first empty one and 32. -/
theorem witness_NopAndSnapshotsChangeNothing :
    (commanded [0x00, 0xFF, 0xFF] State.reset).holds 0x00 [] [0xFF, 0xFF] ∧ (commanded [0x11] State.reset).holds 0x11 [] []
      ∧ (commanded [0x12, 15] State.reset).holds 0x12 [BitVec.ofNat 8 (15 : Station).val] []
      ∧ ((commanded [0x12, 16] State.reset).holds 0x12 [16] [] ∧ 15 < (16 : Byte).toNat)
      ∧ ((commanded [0x13, 0] (holding (locals 1) (station .synced))).holds 0x13 [0] []
        ∧ (holding (locals 1) (station .synced)).table.entries[(0 : Byte).toNat]? = some (localEntry 0 (tenSec + 1000000000)))
      ∧ (commanded [0x13, 31] State.reset).holds 0x13 [31] []
      ∧ (commanded [0x13, 32] State.reset).holds 0x13 [32] [] := by
  refine ⟨?_, ?_, ?_, ⟨?_, ?_⟩, ⟨?_, ?_⟩, ?_, ?_⟩ <;> first | decide | exact ⟨by decide, by decide⟩

theorem witness_ReadTimeGivesTimeStateAndCorrection : (commanded [0x10] (station .fault)).holds 0x10 [] [] :=
  ⟨by decide, by decide⟩

/-- The record of CONFIGURE at the ends of its ranges: the argument bytes of R172's largest values. -/
def widest : ConfigRecord := ⟨6, 1000, 10000, 255, 2000, -200000, Vector.replicate 4 ⟨.both, true⟩, 0b1111⟩

/-- A valid record with every field at an end of its range; a record with a commit margin of 0 ms; and a started station. -/
theorem witness_ConfigureStoresValidRecords :
    (State.reset.ctl.state = .off ∧ widest.valid State.reset.straps.speed = true
        ∧ (commanded (0x01 :: widest.bytes) State.reset).holds 0x01 widest.bytes [])
      ∧ (List.replicate 17 (0xFF : Byte)).length = 17
      ∧ (∀ c : ConfigRecord, c.valid .a = true → List.replicate 17 (0xFF : Byte) ≠ c.bytes)
      ∧ (commanded (0x01 :: List.replicate 17 0xFF) State.reset).holds 0x01 (List.replicate 17 0xFF) []
      ∧ ((station .listen).ctl.state ≠ .off ∧ (commanded (0x01 :: widest.bytes) (station .listen)).holds 0x01 widest.bytes []) := by
  refine ⟨⟨by decide, by decide, ⟨by decide, by decide⟩⟩, by decide, ?_, ⟨by decide, by decide⟩, by decide, ⟨by decide, by decide⟩⟩
  intro c hc h
  have h0 : (0xFF : Byte) = BitVec.ofNat 8 c.roundCode := by
    have := congrArg (fun l : List Byte => l.getD 0 0) h
    simpa [ConfigRecord.bytes, byte1, beBytes] using this
  have h1 : c.roundCode ≤ 6 := by simp [ConfigRecord.valid] at hc; omega
  have := congrArg BitVec.toNat h0
  simp at this; omega

theorem witness_StartTakesTheStationToListen :
    (State.reset.ctl.state = .off ∧ State.reset.straps.speed ≠ .invalid
        ∧ (commanded (0x02 :: beBytes 8 tenSec.toNat) State.reset).holds 0x02 (beBytes 8 tenSec.toNat) [])
      ∧ ((station .fault).ctl.state ≠ .off ∧ (commanded (0x02 :: beBytes 8 0) (station .fault)).holds 0x02 (beBytes 8 0) []
        ∧ (beBytes 8 0).length = 8)
      ∧ (({ State.reset with straps.speed := .invalid } : State).ctl.state = .off
        ∧ (commanded (0x02 :: beBytes 8 0) { State.reset with straps.speed := .invalid }).holds 0x02 (beBytes 8 0) []) :=
  ⟨⟨by decide, by decide, ⟨by decide, by decide⟩⟩, ⟨by decide, ⟨by decide, by decide⟩, by decide⟩, by decide, ⟨by decide, by decide⟩⟩

theorem witness_StopTakesTheStationOff :
    (commanded [0x03] (station .leaving)).holds 0x03 [] [] ∧ (commanded [0x03] State.reset).holds 0x03 [] [] :=
  ⟨⟨by decide, by decide⟩, ⟨by decide, by decide⟩⟩

theorem witness_LeaveTakesTheStationToLeaving :
    ((commanded [0x04] (station .holdover)).holds 0x04 [] [] ∧ (station .holdover).ctl.state ∈ [StationState.joining, .synced, .holdover])
      ∧ ((commanded [0x04] (station .leaving)).holds 0x04 [] []
        ∧ (station .leaving).ctl.state ∉ [StationState.joining, .synced, .holdover]) :=
  ⟨⟨⟨by decide, by decide⟩, by decide⟩, ⟨by decide, by decide⟩, by decide⟩

/-- Two own entries hold the counter's value and the next: the draw gives the third. -/
theorem witness_NewEntriesHaveFreeIdsAndCheckedFields :
    let s := holding (locals 2) (station .synced)
    s.ownSeqs.length < 256 ∧ s.nextSeq = 2 ∧ ((riseAt 1).entry? ⟨0, 0⟩ .loc .owner .armed).isSome = true ∧ (riseAt 1).pass := by
  refine ⟨by decide, by decide, by decide, ?_⟩
  unfold ActionArgs.pass; decide

/-- Each check of SCHEDULE at its boundary: OFF, output 4, a due of now, eight LOCAL entries, 32 entries, and the entry that just fits. -/
theorem witness_ScheduleMakesALocalEntry :
    let a := riseAt (tenSec + 1)
    let with' (s : State) (a : ActionArgs) := commanded (0x21 :: a.bytes) s
    a.output < 256 ∧ a.edge < 256 ∧ a.mode < 256 ∧ a.pass
      ∧ ((with' State.reset a).holds 0x21 a.bytes [] ∧ ¬(State.reset.ctl.state ≠ .off ∧ State.reset.ctl.state ≠ .leaving))
      ∧ ((with' (station .listen) { a with output := 4 }).holds 0x21 { a with output := 4 : ActionArgs }.bytes []
        ∧ ¬{ a with output := 4 : ActionArgs }.pass)
      ∧ ((with' (station .fault) (riseAt tenSec)).holds 0x21 (riseAt tenSec).bytes [] ∧ (riseAt tenSec).due ≤ (station .fault).now)
      ∧ (let s := holding (locals 8) (station .synced)
        (with' s a).holds 0x21 a.bytes [] ∧ s.now < a.due ∧ 8 ≤ s.localCount)
      ∧ (let s := holding (locals 7 ++ copies 25) (station .synced)
        (with' s a).holds 0x21 a.bytes [] ∧ s.now < a.due ∧ s.localCount < 8 ∧ 32 ≤ s.table.entries.length)
      ∧ (let s := holding (locals 7 ++ copies 24) (station .synced)
        (with' s a).holds 0x21 a.bytes [] ∧ s.now < a.due ∧ s.localCount < 8 ∧ s.table.entries.length < 32) := by
  refine ⟨by decide, by decide, by decide, ?_, ⟨⟨by decide, by decide⟩, by decide⟩, ⟨⟨by decide, by decide⟩, ?_⟩,
    ⟨⟨by decide, by decide⟩, by decide⟩, ⟨⟨by decide, by decide⟩, by decide, by decide⟩,
    ⟨⟨by decide, by decide⟩, by decide, by decide, by decide⟩, ⟨⟨by decide, by decide⟩, by decide, by decide, by decide⟩⟩ <;>
  · unfold ActionArgs.pass; decide

/-- Each check of PROPOSE at its boundary: HOLDOVER, mode 2, a due one ns short of twice the margin, and the due of exactly twice the
margin with 32 and with 31 entries. -/
theorem witness_ProposeMakesAPendingEntry :
    let a := riseAt (tenSec + 10000000)
    let with' (s : State) (a : ActionArgs) := commanded (0x20 :: a.bytes) s
    let early (s : State) (a : ActionArgs) : Prop := a.due < s.now + s.cfg.marginNs + s.cfg.marginNs
    a.output < 256 ∧ a.edge < 256 ∧ a.mode < 256 ∧ a.pass
      ∧ ((with' (station .holdover) a).holds 0x20 a.bytes [] ∧ (station .holdover).ctl.state ≠ .synced)
      ∧ ((with' (station .synced) { a with mode := 2 }).holds 0x20 { a with mode := 2 : ActionArgs }.bytes []
        ∧ ¬{ a with mode := 2 : ActionArgs }.pass)
      ∧ ((with' (station .synced) (riseAt (tenSec + 9999999))).holds 0x20 (riseAt (tenSec + 9999999)).bytes []
        ∧ early (station .synced) (riseAt (tenSec + 9999999)))
      ∧ (let s := holding (copies 32) (station .synced)
        (with' s a).holds 0x20 a.bytes [] ∧ ¬early s a ∧ 32 ≤ s.table.entries.length)
      ∧ (let s := holding (copies 31) (station .synced)
        (with' s a).holds 0x20 a.bytes [] ∧ ¬early s a ∧ s.table.entries.length < 32) := by
  refine ⟨by decide, by decide, by decide, ?_, ⟨⟨by decide, by decide⟩, by decide⟩, ⟨⟨by decide, by decide⟩, ?_⟩,
    ⟨⟨by decide, by decide⟩, by decide⟩, ⟨⟨by decide, by decide⟩, by decide, by decide⟩,
    ⟨⟨by decide, by decide⟩, by decide, by decide⟩⟩ <;>
  · unfold ActionArgs.pass; decide

/-- Each answer of CANCEL: owner 16, owner 15, no entry, FAULT, an entry at its deadline, and each taken kind of entry, one in commit
follow-up with a station missing among them. -/
theorem witness_CancelActsByTheEntry :
    let cmd (o : Byte) (s : State) := commanded [0x22, o, 7] s
    let armed : Entry := { ownEntry 7 .armed (atDeadline + 1) with armedSet := some 6 }
    let cancelling : Entry := { ownEntry 7 .cancelling (atDeadline + 1) with marks := some ⟨.host, false⟩ }
    ((cmd 16 State.reset).holds 0x22 [16, 7] [] ∧ 15 < (16 : Byte).toNat)
      ∧ ((cmd 15 State.reset).holds 0x22 [15, 7] [] ∧ (15 : Byte).toNat ≤ 15 ∧ (15 : Byte).toNat ≠ State.reset.own.val)
      ∧ ((cmd 0 (station .synced)).holds 0x22 [0, 7] [] ∧ (station .synced).entry? ⟨0, 7⟩ = none)
      ∧ (let s := holding [armed] (station .fault)
        (cmd 0 s).holds 0x22 [0, 7] [] ∧ s.entry? ⟨s.own, 7⟩ = some armed ∧ s.ctl.state = .fault)
      ∧ (let e := { armed with due := atDeadline }
        let s := holding [e] (station .synced)
        (cmd 0 s).holds 0x22 [0, 7] [] ∧ s.entry? ⟨s.own, 7⟩ = some e ∧ e.due - s.cfg.marginNs ≤ s.now)
      ∧ (let e := localEntry 7 tenSec
        let s := holding [e] (station .listen)
        (cmd 0 s).holds 0x22 [BitVec.ofNat 8 s.own.val, 7] [] ∧ s.entry? ⟨s.own, 7⟩ = some e ∧ e.scope = .loc)
      ∧ (∀ e ∈ [ownEntry 7 .pending atDeadline, ownEntry 7 .committing atDeadline],
        let s := holding [e] (station .holdover)
        (cmd 0 s).command = some ([0x22, 0, 7], 0) ∧ s.entry? ⟨s.own, 7⟩ = some e ∧ s.ctl.state.takesPart = true
          ∧ (e.state = .pending ∨ e.state = .committing))
      ∧ (let s := holding [armed] (station .synced)
        (cmd 0 s).holds 0x22 [0, 7] [] ∧ s.entry? ⟨s.own, 7⟩ = some armed ∧ s.now < armed.due - s.cfg.marginNs
          ∧ needHeld s.engine.needs .commit (.entry armed.id) = false)
      ∧ (let s : State := { holding [armed] (station .synced) with engine := ⟨[⟨.commit, .entry ⟨0, 7⟩, 4⟩], 5, none, 0⟩ }
        (cmd 0 s).holds 0x22 [0, 7] [] ∧ s.entry? ⟨s.own, 7⟩ = some armed ∧ armed.scope = .shared ∧ armed.role = .owner
          ∧ s.ctl.state.takesPart = true ∧ s.now < armed.due - s.cfg.marginNs
          ∧ needHeld s.engine.needs .commit (.entry armed.id) = true ∧ armed.armedSet.getD 0 &&& ~~~(armed.acked.getD 0) = 6)
      ∧ (let s := holding [cancelling] (station .synced)
        (cmd 0 s).holds 0x22 [0, 7] [] ∧ s.entry? ⟨s.own, 7⟩ = some cancelling ∧ s.ctl.state ≠ .fault) := by
  refine ⟨⟨⟨by decide, by decide⟩, by decide⟩, ⟨⟨by decide, by decide⟩, by decide⟩, ⟨⟨by decide, by decide⟩, by decide⟩,
    ⟨⟨by decide, by decide⟩, by decide⟩, ⟨⟨by decide, by decide⟩, by decide⟩, ⟨⟨by decide, by decide⟩, by decide⟩, by decide,
    ⟨⟨by decide, by decide⟩, by decide⟩, ⟨⟨by decide, by decide⟩, by decide⟩, ⟨by decide, by decide⟩, by decide⟩

/-- Each queue with one record, the last, and empty. -/
theorem witness_QueuesGiveTheOldestRecord :
    (commanded [0x30] State.reset).holds 0x30 [] [] ∧ (commanded [0x31] State.reset).holds 0x31 [] []
      ∧ (queueReport .rateLimit State.reset).reports.records = ⟨.rateLimit, 0, .off, 0⟩ :: []
      ∧ State.reset.reports.records = [] ∧ State.reset.capture.records = []
      ∧ (joinCapture ⟨.loc, 0, .rise, 0, false, false, false, 0⟩ State.reset).capture.records =
        ⟨.loc, 0, .rise, 0, false, false, false, 0⟩ :: [] :=
  ⟨⟨by decide, by decide⟩, ⟨by decide, by decide⟩, by decide, by decide, by decide, by decide⟩

/-! ### Witnesses: the line and the Frame Engine -/

/-- The need of the round's SYNC. -/
def syncNeed : Need := ⟨.sync, .roundEngine, 4⟩

/-- The need of the station's LEAVE. -/
def leaveNeed : Need := ⟨.leave, .controller, 4⟩

/-- The need of an entry. -/
def entryNeed (kind : FrameKind) (q : BitVec 8) : Need := ⟨kind, .entry ⟨0, q⟩, 4⟩

/-- Each row one count, one ns, one round or one condition short: no finding and another row's finding; no frame and a frame of another
kind; and for each row of time the state just before it is due, or with the event that goes first. -/
theorem witness_EventsWaitForTheirConditions :
    let line (quiet stuck : Nat) : State :=
      { station .synced with line := { Line.idleLine with phase := .hunt, quietCount := quiet, stuckCount := stuck } }
    let noticed : State := { station .synced with base.notice := some ⟨⟨-1, .merge⟩, true⟩ }
    let soon (e : Entry) := holding [e] (station .synced)
    let following : Entry := { ownEntry 7 .armed (atDeadline + 1) with armedSet := some 6 }
    (∀ row ∈ findingRows .stateFirst, State.reset.line.finding ∉ row.2.map some)
      ∧ some Finding.stopError ∉ [some Finding.frameStart]
      ∧ (State.reset.engine.frame = none ∧ (wholeFrame .leave 3 []).role = .receive ∧ (wholeFrame .leave 3 []).kind? ≠ some .sync)
      ∧ (State.reset.line.phase = .idle ∧ (station .synced).line.condition = .quiet ∧ (line 1199 0).line.condition ≠ .quiet
        ∧ (line 1199 0).line.quietCount < 12 * (line 1199 0).bitTime)
      ∧ ((station .synced).line.condition ≠ .active ∧ (line 0 2399).line.condition = .active
        ∧ (line 0 2399).line.stuckCount < 24 * (line 0 2399).bitTime)
      ∧ ((station .listen).ctl.state ∉ [StationState.joining, .synced, .holdover, .leaving] ∧ (station .synced).engine.needs = []
        ∧ (line 0 0).line.condition ≠ .quiet ∧ (flying (Frame.opened .receive) (station .synced)).engine.frame ≠ none
        ∧ State.reset.line.phase ≠ .hunt)
      ∧ ((station .synced).ctl.state ≠ .listen
        ∧ ((station .listen).now - (tenSec - 299999999)).toNat < 3 * (station .listen).cfg.roundLength)
      ∧ ((station .listen).rounds.active = false ∧ noticed.noticeDue ≠ none
        ∧ (station .synced).now.toNat / (station .synced).cfg.roundLength = (station .synced).rounds.round)
      ∧ ((station .synced).rounds.windowOpen = false
        ∧ (10049999999 : Time).toNat < 100 * (station .synced).cfg.roundLength + (station .synced).cfg.roundLength / 2)
      ∧ (station .synced).noticeDue = none
      ∧ (tenSec < (localEntry 1 (tenSec + 1)).due ∧ (soon (copyEntry 7 .held tenSec)).deadlineBeforeDue (copyEntry 7 .held tenSec) = true
        ∧ (⟨0, 1⟩ : ActionId) ∈ ({ soon (localEntry 1 tenSec) with table.firedNow := [⟨0, 1⟩] } : State).table.firedNow)
      ∧ (((setOutput 2 ⟨true, some (tenSec + 1)⟩ (station .synced)).output 2).pulseEnd = some (tenSec + 1)
        ∧ (2 : Channel) ∈ ({ station .synced with table.firedOutputs := [2] } : State).table.firedOutputs)
      ∧ ((soon (copyEntry 7 .held (atDeadline + 1))).entry? ⟨3, 7⟩ = some (copyEntry 7 .held (atDeadline + 1))
        ∧ (station .synced).now < (atDeadline + 1) - (station .synced).cfg.marginNs ∧ (station .synced).table.expiring = [])
      ∧ ((soon following).entry? ⟨0, 7⟩ = some following ∧ (soon following).now < following.due - (soon following).cfg.marginNs
        ∧ needHeld (soon following).engine.needs .commit (.entry ⟨0, 7⟩) = false)
      ∧ (∀ n : Channel, (station .synced).capture.edges[n] = none) := by decide +kernel

/-- The quiet count at 12 × P exactly, a false start of a first cell, not driven for a sender, and one that the sender drove, with a run
of 14. -/
theorem witness_LineReturnsToQuiet :
    (let s : State := { station .synced with line := { Line.idleLine with phase := .settle, quietCount := 1200 } }
     s.line.phase ≠ .idle ∧ s.line.condition ≠ .quiet ∧ 12 * s.bitTime ≤ s.line.quietCount)
      ∧ (let s := found (.falseStart true) (flying (Frame.opened .receive) (station .synced))
        s.line.finding = some (.falseStart true) ∧ s.engine.frame = some (Frame.opened .receive) ∧ (Frame.opened .receive).cells = []
          ∧ (Frame.opened .receive).role = .receive)
      ∧ (let s := found (.falseStart false) (sending syncNeed [] (station .synced))
        s.line.finding = some (.falseStart false) ∧ s.engine.frame = some (sentFrame syncNeed [])
          ∧ (sentFrame syncNeed []).cells = [])
      ∧ (let s := found (.falseStart true) (sending syncNeed [] { station .synced with engine.run := 14 })
        s.sends syncNeed [] (sentFrame syncNeed []) ∧ (sentFrame syncNeed []).cells = [] ∧ s.failsQuietly syncNeed
          ∧ s.engine.run < 15 ∧ s.line.finding = some (.falseStart true)) :=
  ⟨by decide, by decide, by decide, ⟨by decide, by decide⟩, by decide, ⟨by decide, fun id e h => by simp [syncNeed] at h⟩, by decide⟩

theorem witness_ReceivedFramesEndWithoutOutcome :
    (found .receivedDone (station .listen)).line.finding = some .receivedDone
      ∧ (found .tooLong (station .listen)).line.finding = some .tooLong
      ∧ (let f : Frame := ⟨.receive, [(0x11, 0)], crcInit, false, 0, false⟩
        (flying f (station .synced)).engine.frame = some f ∧ f.role = .receive ∧ f.cells ≠ []
          ∧ ∀ cut ∈ cuts.map Prod.fst, (found cut (flying f (station .synced))).line.finding = some cut) := by decide

/-- An own SYNC at its second cell with a run of 14, cut by each event; and a line that is dominant for 24 × P periods exactly, with
that frame, with a received frame and with none. -/
theorem witness_CutOfAnOwnFrameIsAFailure :
    let f := sentFrame syncNeed [(0x11, 0)]
    let s := sending syncNeed [(0x11, 0)] { station .synced with engine.run := 14 }
    let stuck (s : State) : State := { s with line := { Line.idleLine with phase := .cell, condition := .active, stuckCount := 2400 } }
    (s.sends syncNeed [] { f with role := .transmit syncNeed [] } ∧ f.cells ≠ [] ∧ s.failsQuietly syncNeed
        ∧ ({ s with engine.run := 14 } : State).engine.run < 15
        ∧ ∀ cut ∈ cuts.map Prod.fst, (found cut s).line.finding = some cut)
      ∧ (∀ t ∈ [stuck (station .listen), stuck (flying (Frame.opened .receive) (station .listen)), stuck s],
        t.line.phase ≠ .idle ∧ t.line.condition = .active ∧ 24 * t.bitTime ≤ t.line.stuckCount)
      ∧ (stuck (station .listen)).engine.frame = none ∧ (stuck s).sends syncNeed [] f ∧ (stuck s).failsQuietly syncNeed := by
  have hq : ∀ s : State, s.failsQuietly syncNeed := fun s => ⟨by decide, fun id e h => by simp [syncNeed] at h⟩
  exact ⟨⟨⟨by decide, by decide⟩, by decide, hq _, by decide, by decide⟩, by decide, by decide, ⟨by decide, by decide⟩, hq _⟩

/-- A frame for a need with a run, in a station state, with a finding of the period. -/
def failing (need : Need) (cells : List (Byte × Nat)) (run failures : Nat) (st : StationState) (x : Finding) : State :=
  found x (sending need cells { station st with ctl.leaveFailures := failures, engine.run := run })

/-- A stuck line at 24 × P exactly, with an own LEAVE in flight, for the fourth time or not, whatever the run. -/
def stuckLeave (run failures : Nat) : State :=
  { failing leaveNeed [(0x5A, 0)] run failures .leaving .lostBit with line.stuckCount := 2400 }

/-- Each way in which an own frame fails: a cut, a stuck line, a collision, a driver failure, and one at the start bit of a first cell. -/
theorem witness_OwnFramesFail :
    let f := sentFrame leaveNeed [(0x5A, 0)]
    let s := failing leaveNeed [(0x5A, 0)] 15 2 .leaving
    (∀ cut ∈ cuts, (s cut.1).ownFailure .stateFirst f (cut.2 .stateFirst) (endFrame (s cut.1)))
      ∧ (∃ t, (stuckLeave 15 2).ownFailure .stateFirst f (.lineStuck .stateFirst) t)
      ∧ (∃ t, (s .collidedBit).ownFailure .stateFirst f (.collision .stateFirst) t)
      ∧ (∃ t, (s .deadBit).ownFailure .stateFirst f (.driverFailure .stateFirst) t)
      ∧ ∃ t, (failing leaveNeed [] 15 2 .leaving (.falseStart true)).ownFailure .stateFirst (sentFrame leaveNeed []) (.falseStart .stateFirst) t :=
  ⟨fun cut h => .inl ⟨by decide, cut, h, rfl, rfl, rfl⟩,
    ⟨_, .inr (.inl ⟨by decide, by decide, by decide, rfl, rfl⟩)⟩,
    ⟨_, .inr (.inr (.inl ⟨rfl, rfl, rfl⟩))⟩,
    ⟨_, .inr (.inr (.inr (.inl ⟨rfl, rfl, rfl⟩)))⟩,
    ⟨_, .inr (.inr (.inr (.inr ⟨rfl, rfl, by decide, rfl⟩)))⟩⟩

/-- The LEAVE below four at the runs 14 and 15, and the fourth; the sixteenth failure of a SYNC, and of an acker's slot. -/
theorem witness_FailureLimitsEndTheStation :
    (∀ k ∈ [(14, 2), (15, 2), (15, 3)],
      let s := failing leaveNeed [(0x5A, 0)] k.1 k.2 .leaving .stopError
      s.engine.frame = some (sentFrame leaveNeed [(0x5A, 0)]) ∧ s.holdsNeed leaveNeed = true ∧ s.ctl.state = .leaving
        ∧ s.engine.run = k.1 ∧ s.ctl.leaveFailures = k.2)
      ∧ ((sentFrame leaveNeed [(0x5A, 0)]).role = .transmit leaveNeed [] ∧ leaveNeed.source = .controller)
      ∧ (let s := failing syncNeed [(0x11, 0)] 15 0 .holdover .stopError
        s.sends syncNeed [] (sentFrame syncNeed [(0x11, 0)]) ∧ s.failsQuietly syncNeed ∧ s.engine.run = 15
          ∧ s.ctl.state ∈ [StationState.joining, .synced, .holdover, .leaving])
      ∧ (let s : State := { found .deadBit (flying (Frame.opened .receive) (station .joining)) with engine.run := 15 }
        s.engine.frame = some (Frame.opened .receive) ∧ (Frame.opened .receive).role = .receive ∧ s.engine.run = 15
          ∧ s.ctl.state ∈ [StationState.joining, .synced, .holdover, .leaving] ∧ s.line.finding = some .deadBit) :=
  ⟨by decide, by decide, ⟨⟨by decide, by decide⟩, ⟨by decide, fun id e h => by simp [syncNeed] at h⟩, by decide⟩, by decide⟩

/-- A MARK of age 4 waits beside a COMMIT and a CANCEL; the older CANCEL is selected. -/
theorem witness_SelectionIsByClassThenAge :
    selectNeed [⟨.mark, .markQueue, 1⟩, ⟨.commit, .entry ⟨0, 2⟩, 6⟩, ⟨.cancel, .entry ⟨0, 1⟩, 5⟩] = some ⟨.cancel, .entry ⟨0, 1⟩, 5⟩ := by
  decide

theorem witness_FramesBeginByAccessOrByJoining :
    (let s : State := { station .leaving with engine := ⟨[leaveNeed], 5, none, 0⟩ }
     s.ctl.state ∈ [StationState.joining, .synced, .holdover, .leaving] ∧ s.resetLow = false ∧ s.engine.frame = none
        ∧ s.line.condition = .quiet ∧ s.line.phase = .hunt ∧ selectNeed s.engine.needs = some leaveNeed ∧ s.pins.driverFails = false
        ∧ ({ s with pins.driverFails := true } : State).pins.driverFails = true ∧ ({ s with resetLow := true } : State).resetLow = true)
      ∧ (∀ s ∈ [found .frameStart (station .listen), found .frameStart (station .synced),
          found .frameStart { station .synced with engine := ⟨[syncNeed], 5, none, 0⟩ }],
        s.line.finding = some .frameStart ∧ s.ctl.state ∉ [StationState.off, .fault])
      ∧ (found .frameStart (station .synced)).engine.needs = []
      ∧ selectNeed (found .frameStart { station .synced with engine := ⟨[syncNeed], 5, none, 0⟩ }).engine.needs = some syncNeed := by
  decide

theorem witness_ReadbackMismatchEndsTheSending :
    let s := sending syncNeed [(0x11, 0), (0x00, 0)] { station .synced with engine.run := 14 }
    let r : Frame := ⟨.receive, [(0x11, 0)], crcInit, false, 0, true⟩
    (s.sends syncNeed [] (sentFrame syncNeed [(0x11, 0), (0x00, 0)]) ∧ s.failsQuietly syncNeed ∧ s.engine.run < 15)
      ∧ (∀ x ∈ [Finding.lostBit, .collidedBit, .deadBit], (found x s).line.finding = some x)
      ∧ ((flying r (station .synced)).engine.frame = some r ∧ r.role = .receive) :=
  ⟨⟨⟨by decide, by decide⟩, ⟨by decide, fun id e h => by simp [syncNeed] at h⟩, by decide⟩, by decide, by decide⟩

/-- An own SYNC; the COMMIT of a COMMITTING entry and of a HOST cancel that is not committed; and the first CANCEL for each reason. -/
theorem witness_CheckCompleteIsThePointOfTheEntry :
    let committing := ownEntry 7 .committing (atDeadline + 1)
    let cancelling (r : CancelReason) : Entry := { ownEntry 7 .cancelling (atDeadline + 1) with marks := some ⟨r, false⟩ }
    (let s := found .ownCheckDone (sending syncNeed [] (station .synced))
     s.engine.frame = some (sentFrame syncNeed []) ∧ (sentFrame syncNeed []).role = .transmit syncNeed []
        ∧ s.line.finding = some .ownCheckDone)
      ∧ ∀ k ∈ [(FrameKind.commit, committing), (.commit, cancelling .host), (.cancel, cancelling .tries), (.cancel, cancelling .host)],
        let s := found .ownCheckDone (holding [k.2] (sending (entryNeed k.1 7) [] (station .synced)))
        s.engine.frame = some (sentFrame (entryNeed k.1 7) []) ∧ s.line.finding = some .ownCheckDone
          ∧ (entryNeed k.1 7).source = .entry k.2.id ∧ s.entry? k.2.id = some k.2 ∧ k.2.armedSet = none := by decide

/-- A frame of each source, the MARK with one and with two marks. -/
theorem witness_CompletedFrameReachesItsSource :
    let m : Mark := ⟨0, .rise, tenSec, false, false⟩
    let markNeed : Need := ⟨.mark, .markQueue, 4⟩
    let with' (n : Need) (st : StationState) := found .ownFrameDone (sending n [] (station st))
    (∀ n ∈ [syncNeed, leaveNeed, markNeed, entryNeed .propose 7], (with' n .synced).line.finding = some .ownFrameDone
        ∧ (with' n .synced).engine.frame = some (sentFrame n []) ∧ (with' n .synced).holdsNeed n = true)
      ∧ (with' leaveNeed .leaving).ctl.state = .leaving
      ∧ ({ with' markNeed .synced with capture.marks := [m] } : State).capture.marks.length ≤ 1
      ∧ (({ with' markNeed .synced with capture.marks := [m, m] } : State).capture.marks = m :: m :: []
        ∧ (with' markNeed .synced).ctl.state.takesPart = true) := by decide

/-- The first, the second and the third try of a proposal to stations 1 and 2; behind a departure of station 2, a third try that neither
station has acked, one that both have, and the one that lacks station 2 alone. -/
theorem witness_CompletedProposeDecidesTheProposal :
    let e (tries : Nat) : Entry := { ownEntry 7 .pending atDeadline with tries := some tries }
    let missing (acks : StationSet) : StationSet := 6 &&& ~~~(0 ||| (acks &&& 6))
    (∀ k ∈ [0, 1, 2], (holding [e k] (station .synced)).entry? (e k).id = some (e k) ∧ (e k).state = .pending
        ∧ (e k).required = some 6 ∧ (e k).acked = some 0)
      ∧ (station .synced).ctl.state.takesPart = true ∧ missing 6 = 0 ∧ missing 2 ≠ 0 ∧ 1 + 1 < 3 ∧ 3 ≤ 2 + 1
      ∧ ((e 2).scope = .shared ∧ (e 2).role = .owner ∧ ((holding [e 2] (station .synced)).table.entries.map Entry.id).Nodup)
      ∧ missing 0 &&& ~~~single 2 ≠ 0 ∧ missing 2 &&& ~~~single 2 = 0 := by decide

/-- An ARMED entry in follow-up, with the deadline one ns ahead and a number of tries. -/
def followed (tries : Nat) : Entry := { ownEntry 7 .armed (atDeadline + 1) with armedSet := some 6, tries := some tries }

/-- A CANCELLING entry with a number of tries. -/
def going (tries : Nat) (set : Option StationSet) : Entry :=
  { ownEntry 7 .cancelling atDeadline with armedSet := set, tries := some tries, marks := some ⟨.host, true⟩ }

/-- The second and the third try of a follow-up one ns before the deadline and the first at it, and of a committed and an uncommitted
cancel, with the acks of both stations and of one; and the last outcomes behind a deadline, with every cut of their frames and a run of 14. -/
theorem witness_CompletedCommitAndCancelFollowUp :
    let missing (acks : StationSet) : StationSet := 6 &&& ~~~(0 ||| (acks &&& 6))
    ((holding [followed 1] (station .joining)).entry? (followed 1).id = some (followed 1)
        ∧ (holding [followed 2] (station .joining)).entry? (followed 2).id = some (followed 2)
        ∧ (station .joining).ctl.state.takesPart = true ∧ (station .joining).now < (followed 1).due - (station .joining).cfg.marginNs)
      ∧ ((holding [going 1 none] (station .synced)).entry? (going 1 none).id = some (going 1 none)
        ∧ (holding [going 1 (some 6)] (station .synced)).entry? (going 1 (some 6)).id = some (going 1 (some 6))
        ∧ (holding [going 2 (some 6)] (station .synced)).entry? (going 2 (some 6)).id = some (going 2 (some 6)))
      ∧ missing 6 = 0 ∧ missing 2 ≠ 0 ∧ 1 + 1 < 3 ∧ 3 ≤ 2 + 1
      ∧ ((followed 1).scope = .shared ∧ (followed 1).role = .owner ∧ (station .synced).now = atDeadline - (station .synced).cfg.marginNs)
      ∧ ∀ k ∈ [(FrameKind.commit, { followed 1 with finalAwaited := true }), (.cancel, { going 1 (some 6) with finalAwaited := true }),
          (.cancel, { going 1 none with finalAwaited := true })], ∀ cut ∈ cuts.map Prod.fst,
        let s := found cut (holding [k.2] (sending (entryNeed k.1 7) [(k.1.code, 0)] { station .synced with engine.run := 14 }))
        s.engine.frame = some (sentFrame (entryNeed k.1 7) [(k.1.code, 0)]) ∧ (entryNeed k.1 7).source = .entry k.2.id
          ∧ s.entry? k.2.id = some k.2 ∧ s.engine.run < 15 ∧ s.line.finding = some cut ∧ s.holdsNeed (entryNeed k.1 7) = true := by
  decide

/-! ### Witnesses: acceptance of received frames -/

/-- A SYNC of round 100 from station 3. -/
def syncOf (sender : SenderState) (refTime : Time) : SyncContent := ⟨100, sender, 2, 1, refTime⟩

/-- Its payload. -/
def syncBytes (sender : SenderState) (refTime : Time) : List Byte :=
  beBytes 2 100 ++ byte1 sender.code ++ byte1 2 ++ beBytes 2 1 ++ beBytes 8 refTime.toNat

/-- The acceptance instant of that SYNC, with the latch at ten seconds less 80 ns. -/
def hearing (sender : SenderState) (refTime : Time) (s : State) : State :=
  accepting .sync 3 (syncBytes sender refTime) { s with base.latch := some ⟨tenSec - 80, 0⟩, rounds.windowOpen := true }

/-- The frame of that SYNC. -/
def syncFrame (sender : SenderState) (refTime : Time) : Frame := wholeFrame .sync 3 (syncBytes sender refTime)

/-- The Peer Table with an entry for station 3. -/
def knowing (p : Peer) (s : State) : State := { s with peers := s.peers.set 3 p }

/-- A SYNC whose offset is 80 ns, the step threshold of 100 µs, and one ns more, passes the test and decodes. -/
theorem witness_SyncFramesPass :
    ((syncFrame .synced 10000000000).passes .sync = some 3
        ∧ decodeSync (syncFrame .synced 10000000000).payload = some (syncOf .synced 10000000000))
      ∧ ((syncFrame .synced 10000099920).passes .sync = some 3
        ∧ decodeSync (syncFrame .synced 10000099920).payload = some (syncOf .synced 10000099920))
      ∧ ((syncFrame .synced 10000099921).passes .sync = some 3
        ∧ decodeSync (syncFrame .synced 10000099921).payload = some (syncOf .synced 10000099921)) := by decide +kernel

/-- A new member in each of the three states at the threshold, a member as before, and a member beyond the threshold, with a copy of its
proposal. -/
theorem witness_SyncUpdatesItsSender :
    (∀ st ∈ [StationState.joining, .synced, .holdover],
        let s := hearing .synced 10000099920 (station st)
        s.line.finding = some .acceptance ∧ s.engine.frame = some (syncFrame .synced 10000099920)
          ∧ (syncFrame .synced 10000099920).role = .receive ∧ s.ctl.state.takesPart = true ∧ s.latchNow = some ⟨tenSec - 80, 0⟩
          ∧ (s.peer 3).member = false ∧ (3 : Station) ≠ s.own)
      ∧ ((10000099920 : Time) - (tenSec - 80) = 100000 ∧ (10000099921 : Time) - (tenSec - 80) = 100001)
      ∧ ((hearing .synced 10000000000 (knowing memberPeer (station .synced))).peer 3).member = true
      ∧ ((hearing .synced 10000099921 (knowing memberPeer (station .synced))).peer 3).member = true
      ∧ (hearing .synced 10000099921 (knowing memberPeer (holding [copyEntry 7 .held atDeadline] (station .synced)))).table.entries =
        [copyEntry 7 .held atDeadline] := by decide +kernel

theorem witness_ListeningStationAdopts :
    ∀ sender ∈ [SenderState.joining, .holdover],
      let s := hearing sender tenSec (station .listen)
      s.line.finding = some .acceptance ∧ s.engine.frame = some (syncFrame sender tenSec) ∧ s.ctl.state = .listen
        ∧ (syncFrame sender tenSec).role = .receive ∧ (syncFrame sender tenSec).passes .sync = some 3 ∧ (3 : Station) ≠ s.own
        ∧ decodeSync (syncFrame sender tenSec).payload = some (syncOf sender tenSec) ∧ s.latchNow = some ⟨tenSec - 80, 0⟩ := by decide +kernel

/-- No entry, a suspect, and a member with a copy of its proposal. -/
theorem witness_LeaveEmptiesItsSendersEntry :
    ∀ p ∈ [Peer.absent, suspectPeer, memberPeer],
      let s := accepting .leave 3 [] (knowing p (holding [copyEntry 7 .held atDeadline] (station .holdover)))
      s.line.finding = some .acceptance ∧ s.engine.frame = some (wholeFrame .leave 3 []) ∧ (wholeFrame .leave 3 []).role = .receive
        ∧ (wholeFrame .leave 3 []).passes .leave = some 3 ∧ (3 : Station) ≠ s.own ∧ s.ctl.state.takesPart = true
        ∧ s.peer 3 = p ∧ s.table.entries = [copyEntry 7 .held atDeadline] := by decide +kernel

/-- A member copy of station 4's proposal. -/
def otherCopy : Entry := { copyEntry 3 .held atDeadline with id := ⟨4, 3⟩ }

/-- A table that a left notice does not concern: an ARMED copy of the station's and a HELD one of another's. -/
theorem witness_LeftNoticeConcernsNothing :
    (holding [copyEntry 2 .armed atDeadline, otherCopy] (station .synced)).unconcerned 3 := by unfold State.unconcerned; decide

/-- One table with every case of a left notice of station 3: own proposals to stations 1 and 3 before a first try, behind one that
station 1 has acked, and behind one that it has not; one that a completed PROPOSE of the period has made COMMITTING, one that it has
made CANCELLING with station 1's ack and one without; one that was COMMITTING before; a HELD and an ARMED copy of station 3's; and a HELD copy of station 4's. Then copies
for the purge alone, and own proposals before and behind a first try for the pruning. -/
theorem witness_LeftNoticePrunesAndPurges :
    (let own (q : BitVec 8) (tries : Nat) (acked : StationSet) : Entry :=
       { ownEntry q .pending atDeadline with required := some 10, acked := some acked, tries := some tries }
     let entries :=
       [own 1 0 2, own 2 1 2, own 3 1 0, { own 4 0 0 with state := .committing },
         { own 5 0 2 with state := .cancelling, marks := some ⟨.tries, false⟩ }, { own 6 0 0 with state := .committing },
         { own 7 0 0 with state := .cancelling, marks := some ⟨.tries, false⟩ },
         copyEntry 1 .held atDeadline, copyEntry 2 .armed atDeadline, otherCopy]
     let s : State := { holding entries (station .synced) with table.proposedNow := [⟨0, 7⟩, ⟨0, 5⟩, ⟨0, 4⟩] }
     (s.table.entries.map Entry.id).Nodup ∧ s.ctl.state.takesPart = true ∧ s.table.entries = entries
        ∧ (⟨0, 4⟩ : ActionId) ∈ s.table.proposedNow ∧ (⟨0, 5⟩ : ActionId) ∈ s.table.proposedNow ∧ (⟨0, 7⟩ : ActionId) ∈ s.table.proposedNow
        ∧ (⟨0, 6⟩ : ActionId) ∉ s.table.proposedNow
        ∧ (10 &&& ~~~single 3) &&& ~~~(2 &&& ~~~single 3) = 0 ∧ (10 &&& ~~~single 3) &&& ~~~(0 &&& ~~~single 3) ≠ 0
        ∧ ((own 1 0 2).tries.getD 0 = 0 ∧ 1 ≤ (own 2 1 2).tries.getD 0 ∧ (own 2 1 2).role = .owner ∧ (own 2 1 2).scope = .shared))
      ∧ (let s := holding [copyEntry 1 .held atDeadline, copyEntry 2 .armed atDeadline, otherCopy] (station .synced)
     (∀ e ∈ s.table.entries, s.prunes e = false)
        ∧ (s.table.entries.filter fun e => e.state == .held && e.id.owner == 3) = [copyEntry 1 .held atDeadline])
      ∧ (station .synced).ctl.state.takesPart = true
      ∧ (let e : Entry := { ownEntry 7 .pending atDeadline with acked := some 2, tries := some 1 }
        1 ≤ e.tries.getD 0 ∧ (e.required.getD 0 &&& ~~~single 2) &&& ~~~(e.acked.getD 0 &&& ~~~single 2) = 0)
      ∧ (ownEntry 7 .pending atDeadline).tries.getD 0 = 0
      ∧ (let e : Entry := { ownEntry 7 .pending atDeadline with tries := some 1 }
        (e.required.getD 0 &&& ~~~single 2) &&& ~~~(e.acked.getD 0 &&& ~~~single 2) ≠ 0) := by decide +kernel

/-- A PROPOSE of station 3 with a due one ns behind the margin, one at the margin, one of a malformed action, and each state of the
table: room, no room, a HELD copy in a full table, an ARMED copy, and a HELD copy whose deadline event stands in this period. -/
theorem witness_ProposeMakesAHeldCopy :
    let e := { copyEntry 7 .held (atDeadline + 1) with required := none }
    let payload := proposePayload e
    let short := proposePayload { e with count := 2 }
    let s (entries : List Entry) := accepting .propose 3 payload (knowing memberPeer (holding entries (station .synced)))
    ((wholeFrame .propose 3 short).passes .propose = some 3 ∧ (wholeFrame .propose 3 short).role = .receive
        ∧ (wholeFrame .propose 3 short).payload = short ∧ (decodeProposePayload short).entry? ⟨3, 7⟩ .shared .member .held = none)
      ∧ ((wholeFrame .propose 3 payload).passes .propose = some 3 ∧ (wholeFrame .propose 3 payload).role = .receive
        ∧ (wholeFrame .propose 3 payload).payload = payload ∧ payload.getD 0 0 = 7
        ∧ (decodeProposePayload payload).entry? ⟨3, 7⟩ .shared .member .held = some e)
      ∧ (∀ t ∈ [s [], s (copies 31), s (locals 32), s (e :: locals 31), s [{ e with state := .armed, armedSet := some 1 }]],
        t.line.finding = some .acceptance ∧ t.engine.frame = some (wholeFrame .propose 3 payload) ∧ t.ctl.state = .synced
          ∧ (t.peer 3).member = true ∧ t.now < e.due - t.cfg.marginNs ∧ (3 : Station) ≠ t.own)
      ∧ ¬(s []).now < atDeadline - (s []).cfg.marginNs
      ∧ (∀ t ∈ [s [], s (copies 31), s (locals 32), s (e :: locals 31)], t.expires ⟨3, 7⟩ = false)
      ∧ (s [copyEntry 7 .held atDeadline]).expires ⟨3, 7⟩ = true
      ∧ ((s []).entry? ⟨3, 7⟩ = none ∧ (s []).table.entries.length < 32)
      ∧ ((s (locals 31)).entry? ⟨3, 7⟩ = none ∧ (s (locals 31)).table.entries.length < 32)
      ∧ ((s (locals 32)).entry? ⟨3, 7⟩ = none ∧ 32 ≤ (s (locals 32)).table.entries.length)
      ∧ (s (e :: locals 31)).entry? ⟨3, 7⟩ = some e
      ∧ ((s [{ e with state := .armed, armedSet := some 1 }]).entry? ⟨3, 7⟩).map Entry.state = some .armed := by decide +kernel

/-- A COMMIT of station 3 to stations 0 and 5 and one to station 5 alone, with no copy, a HELD and an ARMED one. -/
theorem witness_CommitArmsTheHeldCopy :
    let f (lo : Byte) := wholeFrame .commit 3 [7, 0, lo]
    (∀ lo ∈ [(0x21 : Byte), 0x20], (f lo).role = .receive ∧ (f lo).passes .commit = some 3 ∧ (f lo).payload = [7, 0, lo])
      ∧ (((0 : Byte) ++ (0x21 : Byte)).getLsbD 0 = true ∧ ((0 : Byte) ++ (0x20 : Byte)).getLsbD 0 = false)
      ∧ ∀ entries ∈ [[], [copyEntry 7 .held atDeadline], [copyEntry 7 .armed atDeadline]],
        let s := accepting .commit 3 [7, 0, 0x21] (holding entries (station .joining))
        s.line.finding = some .acceptance ∧ s.engine.frame = some (f 0x21) ∧ s.ctl.state.takesPart = true
          ∧ s.entry? ⟨3, 7⟩ = entries.head? ∧ (3 : Station) ≠ s.own := by decide +kernel

theorem witness_AcceptedCancelRemovesTheCopy :
    ∀ entries ∈ [[], [copyEntry 7 .armed atDeadline]],
      let s := accepting .cancel 3 [7] (holding entries (station .joining))
      s.line.finding = some .acceptance ∧ s.engine.frame = some (wholeFrame .cancel 3 [7]) ∧ (wholeFrame .cancel 3 [7]).role = .receive
        ∧ (wholeFrame .cancel 3 [7]).passes .cancel = some 3 ∧ (3 : Station) ≠ s.own ∧ s.ctl.state.takesPart = true := by decide +kernel

/-- A LEAVE with a payload cell, a LEAVE in LEAVING, a MARK in LISTEN, a SYNC of member count 17, and a LEAVE from the own number. -/
theorem witness_FramesThatNoBlockTakes :
    let long := wholeFrame .leave 3 [0]
    let many := wholeFrame .sync 3 (beBytes 2 100 ++ [2, 17] ++ beBytes 2 1 ++ beBytes 8 0)
    (∀ f ∈ [long, many, wholeFrame .leave 3 [], wholeFrame .mark 3 (List.replicate 10 0)],
        f.role = .receive ∧ f.isDuplicate (station .synced).own = false)
      ∧ (long.kind? = some .leave ∧ long.passes .leave = none)
      ∧ (many.kind? = some .sync ∧ decodeSync many.payload = none)
      ∧ ((wholeFrame .leave 3 []).kind? = some .leave ∧ (station .leaving).ctl.state = .leaving)
      ∧ ((wholeFrame .mark 3 (List.replicate 10 0)).kind? = some .mark ∧ (station .listen).ctl.state = .listen)
      ∧ (let s := accepting .leave 0 [] (station .synced)
        s.line.finding = some .acceptance ∧ s.engine.frame = some (wholeFrame .leave 0 []) ∧ (wholeFrame .leave 0 []).role = .receive
          ∧ (wholeFrame .leave 0 []).kind? = some .leave ∧ (wholeFrame .leave 0 []).checkGood = true
          ∧ (wholeFrame .leave 0 []).sender? = some s.own) := by decide +kernel

/-! ### Witnesses: time, rounds, actions, captures -/

/-- The listen timer at 3 × L exactly (L is 100 ms), and a round start one round late. -/
theorem witness_FoundingAndRoundStart :
    (let s : State := { station .listen with ctl.listenTimer := some (tenSec - 300000000) }
     s.ctl.state = .listen ∧ s.ctl.listenTimer = some (tenSec - 300000000) ∧ (s.now - (tenSec - 300000000)).toNat = 3 * s.cfg.roundLength)
      ∧ (let s : State := { station .joining with rounds.round := 99 }
         s.rounds.active = true ∧ s.noticeDue = none ∧ s.ctl.state.takesPart = true
           ∧ s.now.toNat / s.cfg.roundLength ≠ s.rounds.round) := by decide

/-- The period of a close point exactly, with an unsent SYNC and one used sample. -/
def closing (st : StationState) : State :=
  { station st with
    base.time := 10050000000
    rounds.windowOpen := true
    rounds.samples := [(3, 5000)]
    peers := State.reset.peers.set 3 { memberPeer with sample := some 5000 } }

/-- That period in SYNCED and in HOLDOVER, and a trim that its sample takes past the limit. -/
theorem witness_CloseSteersTheClock :
    (let s := closing .synced
     s.rounds.active = true ∧ s.rounds.windowOpen = true ∧ s.noticeDue = none ∧ s.ctl.state.takesPart = true
       ∧ s.rounds.round * s.cfg.roundLength + s.cfg.roundLength / 2 = s.now.toNat ∧ s.usedSamples = [5000] ∧ s.candidates = []
       ∧ s.rounds.syncSent = false)
      ∧ (closing .holdover).ctl.state.takesPart = true
      ∧ ({ closing .synced with base.trim := 199999 } : State).base.trim + (25000 : Int).tdiv 4 > 200000 := by decide

/-- Two used values, and three whose own 0 ns is the lowest of four. -/
theorem witness_CorrectionIsTheTrimmedMean :
    ([40, 50] : List Int).length ≤ 2 ∧ 3 ≤ ([10, 60, 900] : List Int).length
      ∧ ((0 : Int) :: [10, 60, 900]).Perm (0 :: 900 :: [10, 60]) ∧ (0 : Int) ≤ 900 ∧ (∀ v ∈ [(10 : Int), 60], 0 ≤ v ∧ v ≤ 900)
      ∧ ∀ v ∈ [(10 : Int), 60, -900], v.natAbs ≤ 900 := by decide

/-- Each judgement at the boundary of its run, with a sync tolerance of 250 ns and c of 0 ns; and a close without a candidate, with no
order given and with one. -/
theorem witness_CloseJudgesEachPeer :
    let with' (p : Peer) := knowing p (station .joining)
    (∀ p ∈ [Peer.absent, { memberPeer with missRun := 1 }, { memberPeer with missRun := 2 }, { memberPeer with sample := some 250 },
          { memberPeer with sample := some 251, outlierRun := 2 }, { memberPeer with sample := some 251, outlierRun := 3 },
          { suspectPeer with sample := some (-251) }, { suspectPeer with sample := some (-250), goodRun := 2 },
          { suspectPeer with sample := some 250, goodRun := 3 }, { memberPeer with member := false, sample := some 0 }],
        (with' p).peer 3 = p)
      ∧ (Peer.absent.present = false ∧ memberPeer.present = true ∧ memberPeer.sample = none ∧ memberPeer.member = true)
      ∧ (suspectPeer.present = true ∧ suspectPeer.member = false ∧ suspectPeer.suspect = true)
      ∧ ¬(station .joining).cfg.syncTolerance < ((250 : Int) - 0).natAbs ∧ (station .joining).cfg.syncTolerance < ((251 : Int) - 0).natAbs
      ∧ (∀ st ∈ [StationState.joining, .synced, .holdover], (station st).ctl.state = st)
      ∧ ((suspectPeer.reported = some .synced ∧ suspectPeer.disagreeing = false)
        ∧ ({ suspectPeer with reported := some .joining } : Peer).reported ≠ some .synced)
      ∧ ((closing .joining).rounds.active = true ∧ (closing .joining).candidates = [] ∧ (closing .joining).noticeDue = none
        ∧ (closing .joining).rounds.round * (closing .joining).cfg.roundLength + (closing .joining).cfg.roundLength / 2
          ≤ (closing .joining).now.toNat)
      ∧ ([] : List Station).Nodup ∧ ([5, 3] : List Station).Nodup := by decide

/-- Two candidates of one count, a station without members, and one with a member, a LOCAL entry and a copy. -/
theorem witness_MergeYieldsToTheLargerGroup :
    (selectCandidate [⟨5, 200000, 3, 2⟩, ⟨4, -200000, 3, 1⟩] = some ⟨4, -200000, 3, 1⟩)
      ∧ (station .synced).ctl.state.takesPart = true ∧ (∀ n : Station, ((station .synced).peer n).member = false)
      ∧ (let s := knowing memberPeer (holding [localEntry 1 tenSec, copyEntry 2 .held atDeadline] (station .holdover))
        s.ctl.state.takesPart = true ∧ s.entriesSound ∧ (s.table.entries.map Entry.id).Nodup ∧ (s.peer 3).member = true) := by
  unfold State.entriesSound Entry.shaped Entry.counted; decide

/-- A correction at the tolerance and one ns beyond it, the second and the third close in a row; and the empty member set of a station
that was peered. -/
theorem witness_QualificationAndHoldover :
    (station .synced).ctl.state ≠ .joining ∧ (station .joining).ctl.state = .joining
      ∧ (250 : Int).natAbs ≤ (station .joining).cfg.syncTolerance ∧ (station .joining).cfg.syncTolerance < (-251 : Int).natAbs
      ∧ ({ station .joining with rounds.joinRun := 1 } : State).rounds.joinRun < 2
      ∧ 2 ≤ ({ station .joining with rounds.joinRun := 2 } : State).rounds.joinRun
      ∧ (let s : State := { station .synced with rounds.peered := true }
         s.ctl.state = .synced ∧ s.rounds.peered = true ∧ s.members = 0)
      ∧ (station .synced).rounds.peered = false ∧ (knowing memberPeer (station .synced)).members ≠ 0 := by decide

/-- A backward step in LEAVING and in SYNCED with an entry, and a forward step with an empty table; a forward step of a table whose
entries end, go on, are one ns ahead, and have fired, and whose deadlines it passes with their dues: a COMMITTING one and a HELD copy, and
cancels that return, that end uncommitted, that end behind their point, and that wait for a CANCEL in flight; and one of a single entry that
it passes 65,536 times, of a single cancel that returns, and of single entries that are removed. -/
theorem witness_StepNoticeShiftsTheScale :
    let back : TimeStep := ⟨-1, .merge⟩
    let on : TimeStep := ⟨200000, .adopt⟩
    (∀ st ∈ [StationState.leaving, .synced],
        ({ holding [localEntry 1 tenSec] (station st) with base.notice := some ⟨back, true⟩ } : State).base.notice = some ⟨back, true⟩)
      ∧ back.amount ≤ 0 ∧ (station .leaving).ctl.state.takesPart = false ∧ (station .synced).ctl.state.takesPart = true
      ∧ (({ station .joining with base.notice := some ⟨on, true⟩ } : State).base.notice = some ⟨on, true⟩
        ∧ (station .joining).table.entries = [])
      ∧ (let endless : Entry := { localEntry 2 tenSec with period := 10000, count := 0 }
        let cancel (q : BitVec 8) (point : Bool) (set : Option StationSet) : Entry :=
          { ownEntry q .cancelling tenSec with armedSet := set, marks := some ⟨.host, point⟩ }
        let passed :=
          [ownEntry 5 .committing tenSec, copyEntry 6 .held tenSec, cancel 8 false (some 6), cancel 9 false none, cancel 10 true (some 6),
            cancel 7 true (some 6)]
        let entries := [localEntry 1 tenSec, endless, localEntry 3 (tenSec + 1), localEntry 4 tenSec] ++ passed
        let s : State := { holding entries (station .joining) with base.notice := some ⟨on, true⟩, table.firedNow := [⟨0, 4⟩] }
        s.base.notice = some ⟨on, true⟩ ∧ 0 < on.amount ∧ (s.table.entries.map Entry.id).Nodup
          ∧ (∀ e ∈ passed, s.deadlineBeforeDue e = true)
          ∧ (let past : Frame := { sentFrame (entryNeed .cancel 7) [] with checkPoint := true }
            (flying past s).engine.frame = some past ∧ past.role = .transmit (entryNeed .cancel 7) []
              ∧ (entryNeed .cancel 7).source = .entry (cancel 7 true (some 6)).id ∧ past.checkPoint = true)
          ∧ ((localEntry 1 tenSec).due ≤ s.now ∧ ((localEntry 1 tenSec).planLate s.now).ends = true)
          ∧ (endless.due ≤ s.now ∧ (endless.planLate s.now).ends = false) ∧ s.now < (localEntry 3 (tenSec + 1)).due
          ∧ (localEntry 4 tenSec).id ∈ s.table.firedNow)
      ∧ (let e : Entry := { localEntry 2 (tenSec - 655350000) with period := 10000, count := 0 }
        let s : State := { holding [e] (station .off) with base.notice := some ⟨on, true⟩ }
        s.table.entries = [e] ∧ e.state = .armed ∧ e.due ≤ s.now ∧ s.table.firedNow = [] ∧ s.table.firedOutputs = []
          ∧ (e.planLate s.now).skip = 65535)
      ∧ ∀ e ∈ [ownEntry 7 .pending tenSec, copyEntry 7 .held tenSec,
          { ownEntry 7 .cancelling tenSec with marks := some ⟨.tries, false⟩ },
          { ownEntry 7 .cancelling tenSec with armedSet := some 6, marks := some ⟨.host, false⟩ },
          { ownEntry 7 .cancelling tenSec with armedSet := some 6, marks := some ⟨.host, true⟩ }],
        let s : State := { holding [e] (station .synced) with base.notice := some ⟨on, true⟩ }
        s.table.entries = [e] ∧ e.due ≤ s.now ∧ s.deadlineDue e = true ∧ s.table.firedNow = [] ∧ s.table.firedOutputs = []
          ∧ s.engine.frame = none ∧ (e.planLate s.now).skip = 0 := by decide

/-- A single firing that is due exactly now, one of an endless period, a pulse end that is reached exactly now, and the first, the last
and a middle number of occurrences that a forward step passes. -/
theorem witness_DueActionsFire :
    let once := localEntry 1 tenSec
    let endless : Entry := { localEntry 1 tenSec with period := 10000, count := 0 }
    (∀ e ∈ [once, endless],
        (holding [e] (station .synced)).nextFiring = some e ∧ (holding [e] (station .synced)).noticeDue = none
          ∧ (∀ x ∈ [e], (holding [e] (station .synced)).deadlineBeforeDue x = false)
          ∧ (holding [e] (station .synced)).forwardStepPeriod = false)
      ∧ (once.count ≠ 0 ∧ once.count.toNat ≤ once.fired + 1 + once.skipped) ∧ endless.count = 0
      ∧ ((setOutput 3 ⟨true, some tenSec⟩ (station .synced)).output 3).pulseEnd = some tenSec
      ∧ (3 : Channel) ∉ (setOutput 3 ⟨true, some tenSec⟩ (station .synced)).table.firedOutputs
      ∧ (tenSec ≤ (station .synced).now)
      ∧ (endless.due ≤ tenSec + 9999 ∧ endless.due.toNat + (1 - 1) * endless.period.toNat ≤ (tenSec + 9999).toNat
        ∧ (tenSec + 9999).toNat < endless.due.toNat + 1 * endless.period.toNat)
      ∧ (endless.due.toNat + (2 - 1) * endless.period.toNat ≤ (tenSec + 10000).toNat
        ∧ (tenSec + 10000).toNat < endless.due.toNat + 2 * endless.period.toNat)
      ∧ (once.period = 0 ∧ once.count.toNat - once.fired - once.skipped ≤ 1) := by decide

theorem witness_HeldCopyExpires :
    let e := copyEntry 7 .held atDeadline
    let s := holding [e] (station .listen)
    s.entry? e.id = some e ∧ e.scope = .shared ∧ e.state = .held ∧ e.finalAwaited = false ∧ e.due - s.cfg.marginNs = s.now := by decide

/-- A CANCELLING entry at its deadline, for a reason, before or behind its point, committed or not. -/
def cancellingEntry (r : CancelReason) (reached : Bool) (set : Option StationSet) : Entry :=
  { ownEntry 7 .cancelling atDeadline with armedSet := set, marks := some ⟨r, reached⟩ }

/-- An entry in commit follow-up at its deadline, with the acks so far. -/
def followingEntry (acked : StationSet) : Entry := { ownEntry 7 .armed atDeadline with armedSet := some 6, acked := some acked }

/-- Every owner entry at its deadline exactly, while the station's own SYNC is in flight: PENDING and COMMITTING; a cancel for each reason,
committed and not, before and behind its point; and a follow-up with and without a station missing. -/
theorem witness_OwnerDeadlinesEndTheirPhase :
    (∀ e ∈ [ownEntry 7 .pending atDeadline, ownEntry 7 .committing atDeadline, cancellingEntry .host false none,
          cancellingEntry .tries false none, cancellingEntry .host false (some 6), cancellingEntry .host true none,
          cancellingEntry .tries true (some 6), followingEntry 6, followingEntry 2],
        let s : State := { flying (sentFrame syncNeed []) (holding [e] (station .synced)) with engine.needs := [entryNeed .commit 7] }
        s.entry? e.id = some e ∧ e.scope = .shared ∧ e.role = .owner ∧ e.finalAwaited = false ∧ e.due - s.cfg.marginNs = s.now
          ∧ s.engine.frame = some (sentFrame syncNeed []) ∧ syncNeed.source ≠ .entry e.id ∧ needHeld s.engine.needs .commit (.entry e.id) = true)
      ∧ (followingEntry 6).armedSet.getD 0 &&& ~~~((followingEntry 6).acked.getD 0) = 0
      ∧ (followingEntry 2).armedSet.getD 0 &&& ~~~((followingEntry 2).acked.getD 0) = 4 := by decide

/-- The same with a frame of the entry in flight: a PROPOSE before its check point and one behind it; the CANCEL of each cancel, and the
COMMIT of an uncommitted HOST one, before the check point; a CANCEL behind it; and a COMMIT of the follow-up. -/
theorem witness_OwnerDeadlinesInFlight :
    let past : Frame := { sentFrame (entryNeed .cancel 7) [] with checkPoint := true }
    (let s := sending (entryNeed .propose 7) [] (holding [ownEntry 7 .pending atDeadline] (station .synced))
     s.engine.frame = some (sentFrame (entryNeed .propose 7) []) ∧ (entryNeed .propose 7).source = .entry ⟨0, 7⟩
        ∧ (entryNeed .propose 7).kind ∈ [FrameKind.propose, .commit, .cancel] ∧ (sentFrame (entryNeed .propose 7) []).checkPoint = false)
      ∧ (let f : Frame := { sentFrame (entryNeed .propose 7) [] with checkPoint := true }
        let s := flying f (holding [ownEntry 7 .pending atDeadline] (station .synced))
        s.engine.frame = some f ∧ f.role = .transmit (entryNeed .propose 7) [] ∧ f.checkPoint = true)
      ∧ (∀ k ∈ [(FrameKind.cancel, cancellingEntry .host false (some 6)), (.cancel, cancellingEntry .tries false none),
          (.commit, cancellingEntry .host false none), (.cancel, cancellingEntry .host false none),
          (.cancel, cancellingEntry .host true (some 6))],
        let s := sending (entryNeed k.1 7) [] (holding [k.2] (station .synced))
        s.engine.frame = some (sentFrame (entryNeed k.1 7) []) ∧ (entryNeed k.1 7).source = .entry k.2.id
          ∧ (sentFrame (entryNeed k.1 7) []).checkPoint = false ∧ s.entry? k.2.id = some k.2)
      ∧ (let s := flying past (holding [cancellingEntry .host true (some 6)] (station .synced))
        s.engine.frame = some past ∧ past.role = .transmit (entryNeed .cancel 7) [] ∧ past.checkPoint = true
          ∧ (entryNeed .cancel 7).source = .entry ⟨0, 7⟩ ∧ s.entry? ⟨0, 7⟩ = some (cancellingEntry .host true (some 6)))
      ∧ (let s := sending (entryNeed .commit 7) [] (holding [followingEntry 6] (station .synced))
        needHeld s.engine.needs .commit (.entry ⟨0, 7⟩) = true ∧ s.engine.frame = some (sentFrame (entryNeed .commit 7) [])
          ∧ (entryNeed .commit 7).kind = .commit ∧ s.entry? ⟨0, 7⟩ = some (followingEntry 6)) := by decide

/-- A rise on CAP3 in LEAVING and LISTEN, on a shared input with four marks and with three, and two MARK payloads: input 3 and input 4. -/
theorem witness_CapturesAndMarksAreRecorded :
    let rise (st : StationState) : State := { station st with capture.edges := State.reset.capture.edges.set 3 (some .rise) }
    let share : ConfigRecord := { ConfigRecord.default with capture := Vector.replicate 4 ⟨.rise, true⟩ }
    let m : Mark := ⟨3, .rise, tenSec, false, false⟩
    (∀ st ∈ [StationState.leaving, .listen, .synced], (rise st).nextEdge = some (3, .rise) ∧ (rise st).ctl.state ≠ .off)
      ∧ ((rise .listen).cfg.capture[3].share = false ∧ share.capture[3].share = true)
      ∧ ({ rise .synced with inForce := some share, capture.marks := [m, m, m, m] } : State).capture.marks.length = 4
      ∧ ({ rise .synced with inForce := some share, capture.marks := [m, m, m] } : State).capture.marks.length < 4
      ∧ (decodeMark (markPayload m) = some m ∧ decodeMark (4 :: (markPayload m).tail) = none) := by decide

theorem witness_MarksPass :
    let payload := markPayload ⟨3, .rise, tenSec, false, false⟩
    let s := accepting .mark 3 payload (station .joining)
    s.line.finding = some .acceptance ∧ s.engine.frame = some (wholeFrame .mark 3 payload)
      ∧ (wholeFrame .mark 3 payload).role = .receive ∧ (wholeFrame .mark 3 payload).passes .mark = some 3
      ∧ (wholeFrame .mark 3 payload).payload = payload ∧ (3 : Station) ≠ s.own ∧ s.ctl.state.takesPart = true := by decide +kernel

/-- The ends of the trim's and the slew term's ranges; a started station with nothing outstanding, no row of which has an effect; and a
received frame's end that the boundary still has to take. -/
theorem witness_TimeAdvancesAtTheBoundary :
    ((-200000 : Int) ≤ -200000 ∧ (200000 : Int) ≤ 200000 ∧ (-500000 : Int) ≤ -500000 ∧ (500000 : Int) ≤ 500000)
      ∧ ((station .synced).line.finding = none ∧ (station .synced).port.ended = none
        ∧ (∀ i ∈ [Instr.stepNotice true, .lineStuck .stateFirst, .lineQuiet, .listenTimeout, .roundStart,
          .roundClose ⟨[], .noticesDiscardMove⟩, .actionDue, .captureEdge, .access], after i (station .synced) = station .synced)
        ∧ (∀ c : Channel, after (.pulseEnd c) (station .synced) = station .synced)
        ∧ ∀ id : ActionId, exec (.deadlineEvent id) (station .synced) = .next (station .synced)
          ∧ exec (.followUpDeadline id) (station .synced) = .next (station .synced))
      ∧ settle (station .synced) = station .synced ∧ settle State.reset = State.reset
      ∧ (settle (found .receivedDone (station .listen))).line.phase = .settle :=
  ⟨by decide, ⟨rfl, rfl, by decide, by decide, fun _ => ⟨rfl, rfl⟩⟩, by decide, by decide, by decide⟩

/-- A line in IDLE, SETTLE, HUNT and in a cell; a gap one period before its cell's end, at it, and at the last periods of its count; and
an own SYNC at its ninth gap, in the period in which its next cell starts, as well as an own MARK there. -/
theorem witness_BoundaryReadsTheInputs :
    let gap (period count : Nat) (s : State) : State :=
      { s with
        period
        line := { Line.idleLine with phase := .gap, edge := 1000, gapCount := count, pattern := some (bytePattern 0) } }
    let heard := flying ⟨.receive, [(0x11, 0)], crcInit, false, 0, false⟩ (station .synced)
    let nine (need : Need) := sending need (List.replicate 9 (0, 0)) (station .synced)
    let markNeed : Need := ⟨.mark, .markQueue, 4⟩
    (∀ s ∈ [State.reset, { station .synced with line := { Line.idleLine with phase := .settle } }, station .synced,
          { heard with line := { Line.idleLine with phase := .cell, bitPos := some 0 } }, gap 1998 0 heard, gap 1999 298 heard,
          gap 1999 299 heard, gap 1999 0 (nine syncNeed), gap 1999 0 (nine markNeed)],
        settle s = s)
      ∧ ((gap 1998 0 heard).period + 1 < (gap 1998 0 heard).line.edge + 10 * (gap 1998 0 heard).bitTime)
      ∧ ((gap 1999 298 heard).line.edge + 10 * (gap 1999 298 heard).bitTime ≤ (gap 1999 298 heard).period + 1
        ∧ (gap 1999 298 heard).line.gapCount + 1 < 3 * (gap 1999 298 heard).bitTime
        ∧ 3 * (gap 1999 299 heard).bitTime ≤ (gap 1999 299 heard).line.gapCount + 1)
      ∧ ((gap 1999 0 (nine syncNeed)).driverEnabled = true ∧ (bytePattern 0).getLsbD 0 = true
        ∧ (gap 1999 0 (nine syncNeed)).period + 1 = (gap 1999 0 (nine syncNeed)).line.edge + 10 * (gap 1999 0 (nine syncNeed)).bitTime)
      ∧ ((gap 1999 0 (nine syncNeed)).engine.frame = some (sentFrame syncNeed (List.replicate 9 (0, 0))) ∧ syncNeed.kind = .sync
        ∧ markNeed.kind ≠ .sync ∧ (sentFrame syncNeed (List.replicate 9 (0, 0))).cells.length = 9) := by decide

/-! ### Witnesses: lists, cells, payloads, invariants -/

/-- A report queue of 31 and one of 32, a capture queue of 15 and one of 16, a due list in order, and the states that keep and discard needs. -/
theorem witness_ListsKeepTheirOrder :
    let r : Report := ⟨.rateLimit, 0, .off, 0⟩
    let c : CaptureRecord := ⟨.loc, 0, .rise, 0, false, false, false, 0⟩
    (List.replicate 31 r).length < 32 ∧ 31 ≤ (List.replicate 31 r).length
      ∧ (List.replicate 15 c).length < 16 ∧ 15 ≤ (List.replicate 15 c).length
      ∧ (locals 2).Pairwise (fun a b => a.before b = true) ∧ (∀ x ∈ locals 2, x.id ≠ (localEntry 7 tenSec).id)
      ∧ (station .holdover).ctl.state ∈ [StationState.joining, .synced, .holdover] ∧ (station .leaving).ctl.state = .leaving
      ∧ (station .fault).ctl.state ∈ [StationState.off, .listen, .fault] := by decide

/-- A cell of class A with its edge at period 1000, at a bit and a period, for a frame of `k` cells: a SYNC's header and zeros. -/
def celled (f : Frame) (i period : Nat) (reading : Level) (pattern : Option (BitVec 10)) : State :=
  { flying f (station .synced) with
    period
    line :=
      { Line.idleLine with
        phase := .cell
        edge := 1000
        bitPos := some i
        shift := List.replicate (i - 1) false
        reading
        pattern } }

/-- A received SYNC of `k` cells. -/
def heardCells (k : Nat) : Frame :=
  ⟨.receive, ([(0x11, 0), (3, 0), (14, 0)] ++ List.replicate 18 ((0 : Byte), 0)).take k, crcInit, false, 0, false⟩

/-- An own LEAVE of `k` cells, whose payload is empty. -/
def ownCells (k : Nat) : Frame :=
  ⟨.transmit leaveNeed [0x5A, 0, 0], List.replicate k (0x5A, 0), crcInit, false, 0, false⟩

/-- Bit 0, a data bit of each role under a driven and a released setting, the stop bit, and one period before an instant. -/
theorem witness_CellsCarryOneByte :
    (∀ x ∈ [Level.dominant, .recessive],
        ((celled (heardCells 3) 0 1050 x none).line.bitPos = some 0
          ∧ (celled (heardCells 3) 0 1050 x none).period = 1000 + (celled (heardCells 3) 0 1050 x none).bitTime / 2)
        ∧ ((celled (heardCells 3) 8 1850 x none).period = 1000 + (2 * 8 + 1) * (celled (heardCells 3) 8 1850 x none).bitTime / 2)
        ∧ ((celled (heardCells 3) 8 1849 x none).period ≠ 1000 + (2 * 8 + 1) * (celled (heardCells 3) 8 1849 x none).bitTime / 2)
        ∧ ((celled (heardCells 3) 9 1950 x none).line.bitPos = some 9
          ∧ (celled (heardCells 3) 9 1950 x none).period = 1000 + 19 * (celled (heardCells 3) 9 1950 x none).bitTime / 2
          ∧ (celled (heardCells 3) 9 1950 x none).line.reading = x))
      ∧ ((celled (ownCells 0) 1 1150 .dominant (some 0b10)).driverEnabled = true ∧ (0b10 : BitVec 10).getLsbD 1 = true
        ∧ (0b01 : BitVec 10).getLsbD 1 = false)
      ∧ (∀ k ∈ [0, 1, 2, 4, 5, 6], (celled (ownCells k) 1 1150 .dominant (some 1)).engine.frame = some (ownCells k)
        ∧ (ownCells k).role = .transmit leaveNeed [0x5A, 0, 0] ∧ (ownCells k).cells.length = k)
      ∧ ([0x5A, 0, 0] : List Byte).length = 0 + 3
      ∧ ((0 : Station).val = 8 * (5 - (0 + 5)) + (1 - 1) ∧ (15 : Station).val = 8 * (6 - (0 + 5)) + (8 - 1))
      ∧ (∀ k ∈ [0, 1, 2, 3, 17, 18, 19, 20], (heardCells k).cells.length = k ∧ (heardCells k).role = .receive)
      ∧ (∀ k ∈ [3, 17, 18, 19, 20], (heardCells k).length = 14)
      ∧ (byteOfBits [false, false, false, true, true, false, false, false]).toNat = 24
      ∧ (byteOfBits [false, false, false, true, true, false, false, true]).toNat = 25
      ∧ ({ celled (heardCells 3) 9 1950 .recessive none with engine.frame := none } : State).engine.frame = none := by decide

/-- The member counts 1 and 16 of a SYNC, payloads of the kinds' lengths, a station with a peer, an entry in each of the two states that a
COMMIT is sent from, and a mark. -/
theorem witness_FramesReadBackAtTheReceiver :
    StationState.holdover.code = SenderState.holdover.code ∧ (1 ≤ 1 ∧ 16 ≤ 16) ∧ ([] : List Byte).length = FrameKind.leave.length
      ∧ (List.replicate 18 (0 : Byte)).length = FrameKind.propose.length
      ∧ (let s := knowing memberPeer (station .synced)
        s.ctl.state.code = SenderState.synced.code ∧ (s.peer s.own).member = false ∧ s.memberCount = 2)
      ∧ (∀ e ∈ [ownEntry 7 .committing atDeadline, followed 1], (holding [e] (station .synced)).entry? e.id = some e)
      ∧ (let m : Mark := ⟨3, .rise, tenSec, false, false⟩
        ({ station .synced with capture.marks := [m, m] } : State).capture.marks = m :: [m]) := by decide

/-- A step of a station with a LOCAL entry, a proposal and a copy, a member and a need: the hypotheses of the invariants of every step hold
before it. -/
def soundState : State :=
  let entries := [localEntry 1 (tenSec + 1), ownEntry 2 .pending (tenSec + 20000000), copyEntry 7 .held (tenSec + 30000000)]
  { knowing memberPeer (holding entries (station .synced)) with
    engine := ⟨[syncNeed], 5, none, 0⟩
    pending := [.stop] }

theorem witness_StepKeepsBoundsAndPins :
    step soundState = .next (after .stop { soundState with pending := [] })
      ∧ soundState.queuesBounded ∧ soundState.pinsHeld ∧ soundState.countsBounded := by
  refine ⟨rfl, ?_, ?_, ?_⟩
  · unfold State.queuesBounded; decide
  · unfold State.pinsHeld; decide
  · exact ⟨by decide, by decide, by decide, by decide, by decide, fun i h => by cases h⟩

theorem witness_StepKeepsTheClockInRange : soundState.clockInRange := by unfold State.clockInRange; decide

theorem witness_StepKeepsTheDueList : soundState.dueListKept := by unfold State.dueListKept; decide

theorem witness_StepKeepsTheEntriesSound : soundState.entriesSound := by
  unfold State.entriesSound Entry.shaped Entry.counted; decide

theorem witness_StepKeepsThePeersSound : soundState.peersSound := by
  unfold State.peersSound Peer.sound; decide

theorem witness_StepKeepsNeedsAndBlocks : soundState.needsSound ∧ soundState.blocksFollow := by
  unfold State.needsSound State.blocksFollow; decide

/-! ### The rows of the rounds -/

/-- R81 to R83: the mean of 0 and 5,000 is 2,500 ns; over 100 ms that is 25,000 ppb, and a quarter of it goes into the trim. -/
theorem test_round_close :
    let t := after (.roundClose ⟨[], .noticesDiscardMove⟩) (closing .synced)
    t.rounds.lastCorrection = 2500 ∧ t.base.slew = 25000 ∧ t.base.trim = 6250 := by decide

/-- R149: a PROPOSE that replaces a HELD copy whose deadline event stands in the same period; the new copy, due a second later, expires. -/
theorem test_replaced_copy_expires :
    let late := proposePayload { copyEntry 7 .held (tenSec + 1000000000) with required := none }
    let s := accepting .propose 3 late (knowing memberPeer (holding [copyEntry 7 .held atDeadline] (station .synced)))
    let t := after (.proposeAccepted .stateFirst) s
    t.table.entries.map Entry.due = [tenSec + 1000000000]
      ∧ (after (.deadlineEvent ⟨3, 7⟩) t).reports.records.map Report.kind = [.heldExpired ⟨3, 7⟩] := by decide +kernel

/-- R149: a completed PROPOSE and a left notice of station 2, in either order, leave station 1 alone in the required set and the entry
COMMITTING, behind a third try that lacks station 2 alone too, whose PROPOSAL_FAILED stands. -/
theorem test_left_notice_and_outcome :
    let s (tries : Nat) := holding [{ ownEntry 7 .pending atDeadline with tries := some tries }] (station .synced)
    let outcome (acks : StationSet) (s : State) := entryCompleted .propose ⟨0, 7⟩ acks true s
    (∀ k ∈ [0, 1, 2], (leftNotice 2 (outcome 6 (s k))).table.entries.map (fun e => (e.state, e.required, e.acked)) =
          [(.committing, some 2, some 0)]
        ∧ (outcome 6 (leftNotice 2 (s k))).table.entries.map (fun e => (e.state, e.required, e.acked)) = [(.committing, some 2, some 0)])
      ∧ (let t := leftNotice 2 (outcome 2 (s 2))
        t.table.entries = (outcome 2 (leftNotice 2 (s 2))).table.entries
          ∧ t.table.entries.map (fun e => (e.state, e.required, e.acked)) = [(.committing, some 2, some 0)]
          ∧ t.engine.needs.map Need.kind = [.commit] ∧ t.reports.records.map Report.kind = [.proposalFailed ⟨0, 7⟩ 4 .tries]) := by decide

/-- R61: a SYNC of a SYNCED station within the step threshold makes a member. -/
theorem test_sync_accepted :
    (after (.syncAccepted .stateFirst) (hearing .synced 10000000000 (station .synced))).reports.records.map Report.kind =
      [.peerJoined 3] := by decide +kernel

end Sys2Proof.Tests
end

section
/-! PROOFS. What one event keeps: a relation between the states before and behind it, and the changes of single blocks that keep it. -/

namespace Sys2Proof.Machine

/-! ### The relation -/

/-- The step from `s` to `t` keeps the bounds of the queues, the pins, the counts of the line and the need list, and under `P` what the
station state leaves the blocks. `P` is what the first state of a longer row is known to have, in the end its own `blocksFollow`: the guards
of the later changes follow from it. The first four need no guard. -/
structure Keeps (P : Prop) (s t : State) : Prop where
  queues : s.queuesBounded → t.queuesBounded
  pins : s.pinsHeld → t.pinsHeld
  counts : s.countsBounded → t.countsBounded
  needs : s.needsSound → t.needsSound
  blocks : P → s.blocksFollow → t.blocksFollow

/-- A step within the station's part: it keeps the five, and moves the station state, if at all, among JOINING, SYNCED and HOLDOVER. -/
structure Inner (P : Prop) (s t : State) : Prop extends Keeps P s t where
  state : P → t.ctl.state = s.ctl.state ∨ s.ctl.state.takesPart = true ∧ t.ctl.state.takesPart = true

/-- The station states that a due list may hold entries in (R124). -/
def StationState.holdsTable (st : StationState) : Prop := st ≠ .off ∧ st ≠ .leaving

/-- The station states that a frame may be in flight in (R21). -/
def StationState.holdsFrame (st : StationState) : Prop := st ≠ .off ∧ st ≠ .fault

variable {P : Prop} {s t u : State}

theorem Keeps.trans (h : Keeps P s t) (h' : Keeps P t u) : Keeps P s u where
  queues := h'.queues ∘ h.queues
  pins := h'.pins ∘ h.pins
  counts := h'.counts ∘ h.counts
  needs := h'.needs ∘ h.needs
  blocks p := h'.blocks p ∘ h.blocks p

theorem Inner.trans (h : Inner P s t) (h' : Inner P t u) : Inner P s u where
  toKeeps := h.toKeeps.trans h'.toKeeps
  state p := by
    rcases h.state p with h1 | ⟨h1, h2⟩ <;> rcases h'.state p with h3 | ⟨h3, h4⟩
    · exact .inl (h3.trans h1)
    · exact .inr ⟨h1 ▸ h3, h4⟩
    · exact .inr ⟨h1, h3 ▸ h2⟩
    · exact .inr ⟨h1, h4⟩

theorem Inner.refl (s : State) : Inner P s s := ⟨⟨id, id, id, id, fun _ => id⟩, fun _ => .inl rfl⟩

/-- A guard that JOINING, SYNCED and HOLDOVER meet goes over an inner step. -/
theorem Inner.guard {G : StationState → Prop} (h : Inner P s t) (hG : ∀ st : StationState, st.takesPart = true → G st)
    (hs : P → G s.ctl.state) (p : P) : G t.ctl.state := by
  rcases h.state p with e | ⟨_, e⟩
  · exact e ▸ hs p
  · exact hG _ e

theorem takesPart_holdsTable {st : StationState} (h : st.takesPart = true) : st.holdsTable := by
  constructor <;> rintro rfl <;> cases h

theorem takesPart_holdsFrame {st : StationState} (h : st.takesPart = true) : st.holdsFrame := by
  constructor <;> rintro rfl <;> cases h

theorem Inner.holdsTable (h : Inner P s t) (hs : P → s.ctl.state.holdsTable) : P → t.ctl.state.holdsTable :=
  h.guard (fun _ => takesPart_holdsTable) hs

theorem Inner.on (h : Inner P s t) (hs : P → s.ctl.state ≠ .off) : P → t.ctl.state ≠ .off :=
  h.guard (G := (· ≠ .off)) (fun _ hp => (takesPart_holdsTable hp).1) hs

/-- The blocks are as the station state leaves them, and it is JOINING, SYNCED or HOLDOVER. -/
def State.inPart (s : State) : Prop := s.blocksFollow ∧ s.ctl.state.takesPart = true

theorem Inner.takesPart (h : Inner P s t) (hs : P → s.ctl.state.takesPart = true) : P → t.ctl.state.takesPart = true :=
  h.guard (G := (·.takesPart = true)) (fun _ => id) hs

/-- An event repeated over a list is an inner step, where each is one under a guard that goes over inner steps. -/
theorem Inner.foldl {α : Type} {G : State → Prop} {f : State → α → State} (hG : ∀ {s t}, Inner P s t → (P → G s) → P → G t)
    (hf : ∀ s a, (P → G s) → Inner P s (f s a)) (xs : List α) (s : State) (hs : P → G s) : Inner P s (xs.foldl f s) := by
  induction xs generalizing s with
  | nil => exact .refl s
  | cons a xs ih => exact (hf s a hs).trans (ih _ (hG (hf s a hs) hs))

/-- An event that is an inner step in every state, repeated over a list. -/
theorem Inner.foldl_free {α : Type} {f : State → α → State} (hf : ∀ s a, Inner P s (f s a)) (xs : List α) (s : State) :
    Inner P s (xs.foldl f s) :=
  Inner.foldl (G := fun _ => True) (fun _ h => h) (fun s a _ => hf s a) xs s fun _ => trivial

/-- What the blocks hold goes over a step that keeps it. -/
theorem Keeps.sound (h : Keeps P s t) (hs : P → s.blocksFollow) : P → t.blocksFollow := fun p => h.blocks p (hs p)

theorem Inner.inPart (h : Inner P s t) (hs : P → s.inPart) : P → t.inPart := fun p =>
  ⟨h.sound (fun p => (hs p).1) p, h.takesPart (fun p => (hs p).2) p⟩

/-- One inner step of a station that takes part behind another. -/
theorem Inner.comp {f g : State → State} (hf : ∀ s, (P → s.inPart) → Inner P s (f s)) (hg : ∀ s, (P → s.inPart) → Inner P s (g s))
    (s : State) (hs : P → s.inPart) : Inner P s (g (f s)) :=
  (hf s hs).trans (hg _ ((hf s hs).inPart hs))

/-! ### What the blocks tell of the station state -/

theorem on_of_finding {x : Finding} (hb : s.blocksFollow) (h : s.line.finding = some x) : s.ctl.state ≠ .off := by
  obtain ⟨_, hline, _⟩ := hb
  intro hoff
  simp [(hline hoff).1] at h

theorem on_of_phase (hb : s.blocksFollow) (h : s.line.phase ≠ .idle) : s.ctl.state ≠ .off := fun hoff => h (hb.1.1 hoff)

theorem holdsTable_of_mem {e : Entry} (hb : s.blocksFollow) (h : e ∈ s.table.entries) : s.ctl.state.holdsTable := by
  obtain ⟨_, _, _, _, _, _, htable, _⟩ := hb
  constructor <;> intro hst <;> simp [htable (by simp [hst])] at h

theorem takesPart_of_active (hb : s.blocksFollow) (h : s.rounds.active = true) : s.ctl.state.takesPart = true := by
  obtain ⟨_, _, _, _, _, _, _, hrounds, _⟩ := hb
  by_contra hn
  simp [(hrounds (by simpa using hn)).1] at h

/-! ### Changes of one block -/

theorem inner_reports {q : List Report} (hlen : s.reports.records.length ≤ 32 → q.length ≤ 32)
    (hloss : (∀ r ∈ s.reports.records, r.loss ≤ 255) → ∀ r ∈ q, r.loss ≤ 255) : Inner P s { s with reports.records := q } where
  queues := fun ⟨h1, h2, h3, h4, h5⟩ => ⟨hlen h1, h2, h3, hloss h4, h5⟩
  pins := id
  counts := id
  needs := id
  blocks _ := id
  state _ := .inl rfl

theorem inner_entries {es : List Entry} (h : P → s.ctl.state.holdsTable ∨ es = [] ∨ s.table.entries ≠ []) :
    Inner P s { s with table.entries := es } where
  queues := id
  pins := id
  counts := id
  needs := id
  blocks p := fun ⟨h1, h2, h3, h4, h5, h6, h7, hrest⟩ => by
    refine ⟨h1, h2, h3, h4, h5, h6, fun hst => ?_, hrest⟩
    rcases h p with ⟨ha, hb⟩ | he | he
    · rcases hst with hst | hst
      · exact absurd hst ha
      · exact absurd hst hb
    · exact he
    · exact absurd (h7 hst) he
  state _ := .inl rfl

/-- The outputs and what has happened in the period (7.1). -/
theorem inner_table {tb : ActionTable} (h : tb.entries = s.table.entries) : Inner P s { s with table := tb } where
  queues := id
  pins := id
  counts := id
  needs := id
  blocks _ := fun ⟨h1, h2, h3, h4, h5, h6, h7, hrest⟩ => ⟨h1, h2, h3, h4, h5, h6, fun hst => h.trans (h7 hst), hrest⟩
  state _ := .inl rfl

theorem inner_base {b : TimeBase} (h : b.running = s.base.running) : Inner P s { s with base := b } where
  queues := id
  pins := id
  counts := id
  needs := id
  blocks _ := fun ⟨h1, h2, h3, h4, hrest⟩ => ⟨h1, h2, h3, h ▸ h4, hrest⟩
  state _ := .inl rfl

theorem inner_peers {ps : Vector Peer 16} (h : P → s.ctl.state ≠ .off) : Inner P s { s with peers := ps } where
  queues := id
  pins := id
  counts := id
  needs := id
  blocks p := fun ⟨h1, h2, h3, h4, h5, _, hrest⟩ => ⟨h1, h2, h3, h4, h5, fun hst => absurd hst (h p), hrest⟩
  state _ := .inl rfl

theorem inner_rounds {r : RoundEngine} (hactive : P → r.active = true → s.rounds.active = true ∨ s.ctl.state.takesPart = true)
    (hwindow : P → r.windowOpen = true → r.active = true ∨ s.rounds.windowOpen = true ∧ r.active = s.rounds.active) :
    Inner P s { s with rounds := r } where
  queues := id
  pins := id
  counts := id
  needs := id
  blocks p := fun ⟨h1, h2, h3, h4, h5, h6, h7, h8, h9, hrest⟩ => by
    refine ⟨h1, h2, h3, h4, h5, h6, h7, fun hst => ⟨?_, (h8 hst).2⟩, fun hw => ?_, hrest⟩
    · by_contra hn
      rcases hactive p (by simpa using hn) with ha | ha
      · simp [(h8 hst).1] at ha
      · simp [ha] at hst
    · rcases hwindow p hw with ha | ⟨ha, hb⟩
      · exact ha
      · exact hb.trans (h9 ha)
  state _ := .inl rfl

/-- The counts of the Line Interface lie in their ranges for a bit time, and the cell bit position goes with the phase and the bits taken:
what `State.countsBounded` says of the line. -/
def Line.bounded (p : Nat) (l : Line) : Prop :=
  l.quietCount ≤ 12 * p ∧ l.stuckCount ≤ 24 * p ∧ l.gapCount ≤ 3 * p ∧ l.shift.length ≤ 8
    ∧ ∀ i, l.bitPos = some i → l.phase = .cell ∧ i ≤ 9 ∧ l.shift.length = i - 1

theorem countsBounded_iff : s.countsBounded ↔ s.line.bounded s.bitTime ∧ s.engine.run ≤ 16 := by
  simp only [State.countsBounded, Line.bounded]
  tauto

theorem inner_line {l : Line} (hdriver : l.driver = true → s.line.driver = true ∨ s.driverEnabled = true)
    (hbound : s.line.bounded s.bitTime → l.bounded s.bitTime) (hon : P → s.ctl.state ≠ .off)
    (hphase : s.line.phase ≠ .idle → l.phase ≠ .idle) : Inner P s { s with line := l } where
  queues := id
  pins := fun ⟨h1, h2⟩ => by
    have hen : l.driver = true → s.driverEnabled = true := fun hd => (hdriver hd).elim h1 id
    refine ⟨hen, fun hlow => ⟨?_, (h2 hlow).2⟩⟩
    by_contra hn
    have := hen (by simpa using hn)
    simp [State.driverEnabled, show s.resetLow = true from hlow] at this
  counts := fun h => countsBounded_iff.2 ⟨hbound (countsBounded_iff.1 h).1, (countsBounded_iff.1 h).2⟩
  needs := id
  blocks p := fun ⟨h1, _, hrest⟩ =>
    ⟨iff_of_false (hon p) (hphase fun hi => hon p (h1.2 hi)), fun hst => absurd hst (hon p), hrest⟩
  state _ := .inl rfl

theorem inner_frame {f : Option Frame} (h : P → s.ctl.state.holdsFrame ∨ (s.engine.frame = none → f = none)) :
    Inner P s { s with engine.frame := f } where
  queues := id
  pins := id
  counts := id
  needs := id
  blocks p := fun ⟨h1, h2, h3, hrest⟩ => by
    refine ⟨h1, h2, fun hst => ?_, hrest⟩
    rcases h p with ⟨ha, hb⟩ | hf
    · rcases hst with hst | hst
      · exact absurd hst ha
      · exact absurd hst hb
    · exact hf (h3 hst)
  state _ := .inl rfl

theorem inner_run {n : Nat} (h : n ≤ 16) : Inner P s { s with engine.run := n } where
  queues := id
  pins := id
  counts := fun hc => countsBounded_iff.2 ⟨(countsBounded_iff.1 hc).1, h⟩
  needs := id
  blocks _ := id
  state _ := .inl rfl

/-- The controller's fields but the station state, the listen timer and the fault cause. -/
theorem inner_ctl {failures : Nat} {seq : BitVec 8} :
    Inner P s { s with ctl.leaveFailures := failures, ctl.seq := seq } := ⟨⟨id, id, id, id, fun _ => id⟩, fun _ => .inl rfl⟩

/-- The host port: while RESET_N is low, no transaction begins. -/
theorem inner_port {p : HostPort} (h : s.resetLow = true → s.port.transaction = none → p.transaction = none) :
    Inner P s { s with port := p } where
  queues := id
  pins := fun ⟨h1, h2⟩ => ⟨h1, fun hlow => ⟨(h2 hlow).1, (h2 hlow).2.1, h hlow (h2 hlow).2.2⟩⟩
  counts := id
  needs := id
  blocks _ := id
  state _ := .inl rfl

/-- The needs that stay keep their order and their sources. -/
theorem inner_filterNeeds (q : Need → Bool) : Inner P s { s with engine.needs := s.engine.needs.filter q } where
  queues := id
  pins := id
  counts := id
  needs := fun ⟨h1, h2⟩ => ⟨h1.filter q, fun n hn => h2 n (List.mem_of_mem_filter hn)⟩
  blocks _ := id
  state _ := .inl rfl

theorem inner_capture {c : CaptureUnit}
    (hqueues : s.capture.records.length ≤ 16 → (∀ r ∈ s.capture.records, r.loss ≤ 255) →
      c.records.length ≤ 16 ∧ ∀ r ∈ c.records, r.loss ≤ 255)
    (hmarks : s.capture.marks.length ≤ 4 → c.marks.length ≤ 4)
    (hrecords : P → s.ctl.state ≠ .off ∨ (s.capture.records = [] → c.records = []))
    (hpart : P → s.ctl.state.takesPart = true ∨ (s.capture.marks = [] → c.marks = [])) : Inner P s { s with capture := c } where
  queues := fun ⟨h1, h2, h3, h4, h5⟩ => ⟨h1, (hqueues h2 h5).1, hmarks h3, h4, (hqueues h2 h5).2⟩
  pins := id
  counts := id
  needs := id
  blocks p := fun ⟨h1, h2, h3, h4, h5, h6, h7, h8, hrest⟩ => by
    refine ⟨h1, h2, h3, h4, h5, fun hst => ⟨?_, (h6 hst).2⟩, h7, fun hst => ⟨(h8 hst).1, ?_⟩, hrest⟩
    · exact (hrecords p).elim (absurd hst) fun hr => hr (h6 hst).1
    · exact (hpart p).elim (fun ht => by simp [ht] at hst) fun hm => hm (h8 hst).2
  state _ := .inl rfl

/-- A move of the station state among JOINING, SYNCED and HOLDOVER. -/
theorem inner_move {new : StationState} (hnew : new.takesPart = true) (h : P → s.ctl.state.takesPart = true) :
    Inner P s { s with ctl.state := new } where
  queues := id
  pins := fun ⟨h1, h2⟩ => by
    refine ⟨fun hd => ?_, h2⟩
    have := h1 hd
    simp only [State.driverEnabled, Bool.and_eq_true] at this ⊢
    exact ⟨takesPart_drives hnew, this.2⟩
  counts := id
  needs := fun ⟨h1, h2⟩ => ⟨h1, fun n hn => ⟨(h2 n hn).1, takesPart_keeps_needs hnew n.kind⟩⟩
  blocks p := fun ⟨h1, h2, h3, h4, h5, h6, h7, h8, h9, h10, h11⟩ => by
    have hs := h p
    have hsOff : s.ctl.state ≠ .off := (takesPart_holdsTable hs).1
    have hnOff : new ≠ .off := (takesPart_holdsTable hnew).1
    have hnLeaving : new ≠ .leaving := (takesPart_holdsTable hnew).2
    have hnFault : new ≠ .fault := (takesPart_holdsFrame hnew).2
    have hsListen : s.ctl.state ≠ .listen := by rintro e; simp [e, StationState.takesPart] at hs
    have hnListen : new ≠ .listen := by rintro rfl; cases hnew
    refine ⟨?_, ?_, ?_, ?_, ?_, ?_, ?_, ?_, h9, ?_, ?_⟩ <;> simp_all
  state p := .inr ⟨h p, hnew⟩

end Sys2Proof.Machine
end

section
/-! PROOFS. The shared operations, the Action Table and the Action Protocol as inner steps. -/

namespace Sys2Proof.Machine

variable {P : Prop} {s : State}

/-! ### Reports and needs -/

theorem report_lose_le (r : Report) : r.lose.loss ≤ 255 := Nat.min_le_left ..

theorem queueReport_inner (k : ReportKind) (s : State) : Inner P s (queueReport k s) :=
  inner_reports joinQueue_length_le fun h => joinQueue_forall h (Nat.zero_le _) fun r _ => report_lose_le r

theorem queueReports_inner (ks : List ReportKind) (s : State) : Inner P s (queueReports ks s) :=
  Inner.foldl_free (fun s k => queueReport_inner k s) ks s

theorem withdrawNeed_inner (source : NeedSource) (s : State) : Inner P s (withdrawNeed source s) := inner_filterNeeds _

theorem removeNeed_inner (need : Need) (s : State) : Inner P s (removeNeed need s) := inner_filterNeeds _

/-- A raised need stands behind all others, with an age above theirs, alone of its source (R22). -/
theorem raiseNeed_inner (kind : FrameKind) (source : NeedSource) (s : State) : Inner P s (raiseNeed kind source s) := by
  cases hd : discardsNeed s.ctl.state kind with
  | true => rw [raiseNeed_discarded hd]; exact .refl s
  | false =>
    rw [raiseNeed_taken hd]
    refine ⟨⟨id, id, id, fun ⟨horder, hages⟩ => ⟨?_, ?_⟩, fun _ => id⟩, fun _ => .inl rfl⟩
    · refine List.pairwise_append.2 ⟨horder.filter _, List.pairwise_singleton _ _, fun a ha b hb => ?_⟩
      obtain ⟨ha, hsource⟩ := List.mem_filter.1 ha
      rw [List.mem_singleton.1 hb]
      exact ⟨(hages a ha).1, by simpa using hsource⟩
    · intro n hn
      rcases List.mem_append.1 hn with hn | hn
      · have := hages n (List.mem_of_mem_filter hn)
        exact ⟨Nat.lt_succ_of_lt this.1, this.2⟩
      · rw [List.mem_singleton.1 hn]
        exact ⟨Nat.lt_succ_self _, hd⟩

/-- A move among JOINING, SYNCED and HOLDOVER, with its STATE_CHANGED. -/
theorem moveState_inner {new : StationState} (hnew : new.takesPart = true) (cause : MoveCause)
    (h : P → s.ctl.state.takesPart = true) : Inner P s (moveState new cause s) :=
  (inner_move hnew h).trans (queueReport_inner ..)

/-! ### The due list -/

theorem putEntry_inner (e : Entry) (h : P → s.ctl.state.holdsTable) : Inner P s (putEntry e s) :=
  inner_entries fun p => .inl (h p)

theorem removeEntry_inner (id : ActionId) (s : State) : Inner P s (removeEntry id s) := by
  refine Inner.trans (inner_entries fun _ => .inr ?_) (withdrawNeed_inner ..)
  cases hs : s.table.entries with
  | nil => exact .inl rfl
  | cons e rest => exact .inr (by simp)

/-! ### The frame in flight -/

theorem settled_bounded {p : Nat} {l : Line} (h : l.bounded p) : l.settled.bounded p := by
  obtain ⟨h1, h2, _⟩ := h
  exact ⟨h1, h2, Nat.zero_le _, Nat.zero_le _, fun i hi => by cases hi⟩

theorem settled_phase (l : Line) : l.settled.phase ≠ .idle := by
  simp only [Line.settled]; split <;> simp

theorem endFrame_inner (h : P → s.ctl.state ≠ .off) : Inner P s (endFrame s) :=
  have hline : Inner P s { s with line := s.line.settled } := inner_line .inl settled_bounded h fun _ => settled_phase _
  hline.trans ((inner_frame fun _ => .inr fun _ => rfl).trans (inner_base rfl))

/-- A new pattern and finding leave the counts, the driver and the phase. -/
theorem inner_pattern {pattern : Option (BitVec 10)} {finding : Option Finding} (h : P → s.ctl.state ≠ .off) :
    Inner P s { s with line.pattern := pattern, line.finding := finding } :=
  inner_line .inl id h id

/-- An owner cut ends a frame in flight, if it does anything. -/
theorem ownerCut_inner (id : ActionId) (kinds : List FrameKind) (h : P → s.ctl.state ≠ .off) :
    Inner P s (ownerCut id kinds s) := by
  unfold ownerCut
  split
  · split
    · split
      · exact (inner_pattern h).trans ((endFrame_inner h).trans (removeNeed_inner ..))
      · exact .refl s
    · exact .refl s
  · exact .refl s

/-! ### Firing -/

/-- A firing puts its entry back, or removes it with ACTION_DONE. -/
theorem fire_inner (late : Bool) (e : Entry) (h : P → s.ctl.state.holdsTable) : Inner P s (fire late e s) := by
  have hout : Inner P s (markFired e (fireOutput late e s)) := inner_table rfl
  have hrep : Inner P (markFired e (fireOutput late e s)) (fireReport late e (markFired e (fireOutput late e s))) := by
    unfold fireReport; split
    · exact queueReport_inner ..
    · exact .refl _
  have hpre := hout.trans hrep
  refine hpre.trans ?_
  unfold fire fireEntry
  split
  · exact (removeEntry_inner ..).trans (queueReport_inner ..)
  · exact putEntry_inner _ (hpre.holdsTable h)

theorem actionDue_inner (hs : P → s.blocksFollow) : Inner P s (actionDue s) := by
  rcases actionDue_cases s with ⟨_, he⟩ | ⟨e, hn, he⟩ <;> rw [he]
  · exact .refl s
  · refine fire_inner _ e fun p => holdsTable_of_mem (hs p) (e := e) ?_
    unfold State.nextFiring at hn
    split at hn
    · cases hn
    · exact List.mem_of_find?_eq_some hn

theorem pulseEnd_inner (c : Channel) (s : State) : Inner P s (pulseEnd c s) := by
  rcases pulseEnd_cases c s with he | ⟨_, he⟩ <;> rw [he]
  · exact .refl s
  · exact inner_table rfl

/-- An event at each of some entries of the table: where there is one, the state holds a table. -/
theorem Inner.foldl_entries {f : State → Entry → State} (q : Entry → Bool) (hs : P → s.blocksFollow)
    (hf : ∀ s e, (P → s.ctl.state.holdsTable) → Inner P s (f s e)) : Inner P s ((s.table.entries.filter q).foldl f s) := by
  cases hl : s.table.entries.filter q with
  | nil => exact .refl s
  | cons e rest =>
    have he : e ∈ s.table.entries := List.mem_of_mem_filter (hl ▸ List.mem_cons_self)
    exact Inner.foldl (G := (·.ctl.state.holdsTable)) Inner.holdsTable hf _ s fun p => holdsTable_of_mem (hs p) he

theorem fireAllLate_inner (hs : P → s.blocksFollow) : Inner P s (fireAllLate s) :=
  Inner.foldl_entries _ hs fun _ e h => fire_inner true e h

/-! ### Owner phases -/

theorem raiseFor_put_inner (kind : FrameKind) (e e' : Entry) (h : P → s.ctl.state.holdsTable) :
    Inner P s (raiseFor kind e (putEntry e' s)) := (putEntry_inner e' h).trans (raiseNeed_inner ..)

theorem becomeCommitting_inner (e : Entry) (h : P → s.ctl.state.holdsTable) : Inner P s (becomeCommitting e s) :=
  raiseFor_put_inner _ _ _ h

theorem proposeCompleted_inner (acks : StationSet) (e : Entry) (h : P → s.ctl.state.holdsTable) :
    Inner P s (proposeCompleted acks e s) := by
  have hm : Inner P s (markProposed e.id s) := inner_table rfl
  refine hm.trans ?_
  unfold proposeCompleted proposeOutcome
  extract_lets e'
  split
  · exact becomeCommitting_inner _ h
  · split
    · exact raiseFor_put_inner _ _ _ h
    · exact (putEntry_inner (s := markProposed e.id s) _ h).trans ((queueReport_inner ..).trans (raiseNeed_inner ..))

theorem endFollowUp_inner (e : Entry) (h : P → s.ctl.state.holdsTable) : Inner P s (endFollowUp e s) :=
  (putEntry_inner _ h).trans ((withdrawNeed_inner ..).trans (queueReports_inner ..))

theorem commitCompleted_inner (acks : StationSet) (e : Entry) (h : P → s.ctl.state.holdsTable) :
    Inner P s (commitCompleted acks e s) := by
  unfold commitCompleted
  extract_lets e
  split
  · exact raiseFor_put_inner _ _ _ h
  · exact endFollowUp_inner _ h

theorem endCancel_inner (e : Entry) (s : State) : Inner P s (endCancel e s) :=
  (removeEntry_inner ..).trans (queueReports_inner ..)

theorem cancelCompleted_inner (acks : StationSet) (e : Entry) (h : P → s.ctl.state.holdsTable) :
    Inner P s (cancelCompleted acks e s) := by
  unfold cancelCompleted
  extract_lets e
  split
  · exact raiseFor_put_inner _ _ _ h
  · exact endCancel_inner ..

theorem cancelPoint_inner (e : Entry) (h : P → s.ctl.state.holdsTable) : Inner P s (cancelPoint e s) := by
  unfold cancelPoint
  split
  · exact .refl s
  · exact (putEntry_inner _ h).trans (queueReports_inner ..)

/-- What the protocol answers at the entry of an id, where the table has it. -/
theorem inner_at_entry {f : Entry → State} (hs : P → s.blocksFollow) (id : ActionId)
    (hf : ∀ e, (P → s.ctl.state.holdsTable) → Inner P s (f e)) :
    Inner P s (match s.entry? id with | none => s | some e => f e) := by
  cases he : s.entry? id with
  | none => exact .refl s
  | some e => exact hf e fun p => holdsTable_of_mem (hs p) (entry?_mem he)

theorem entryCheckComplete_inner (kind : FrameKind) (id : ActionId) (hs : P → s.blocksFollow) :
    Inner P s (entryCheckComplete kind id s) := by
  refine inner_at_entry hs id fun e h => ?_
  split
  · exact putEntry_inner _ h
  · split
    · exact putEntry_inner _ h
    · exact .refl s
  · exact cancelPoint_inner e h
  · exact .refl s

theorem entryCompleted_inner (kind : FrameKind) (id : ActionId) (acks : StationSet) (held : Bool) (hs : P → s.blocksFollow) :
    Inner P s (entryCompleted kind id acks held s) := by
  refine inner_at_entry hs id fun e h => ?_
  split
  · exact proposeCompleted_inner acks e h
  · split
    · exact commitCompleted_inner acks e h
    · exact .refl s
  · exact cancelCompleted_inner acks e h
  · exact .refl s

theorem entryFailed_inner (kind : FrameKind) (id : ActionId) (held : Bool) (hs : P → s.blocksFollow) :
    Inner P s (entryFailed kind id held s) := by
  refine inner_at_entry hs id fun e h => ?_
  split
  · split
    · exact endFollowUp_inner e h
    · exact .refl s
  · split
    · exact endCancel_inner e s
    · exact .refl s
  · exact .refl s

/-! ### Deadlines -/

theorem cancelDeadline_inner (e : Entry) (h : P → s.ctl.state.holdsTable) : Inner P s (cancelDeadline e s) := by
  unfold cancelDeadline
  extract_lets t
  have hcut : Inner P s t := ownerCut_inner _ _ fun p => (h p).1
  have ht := hcut.holdsTable h
  refine hcut.trans ?_
  split
  · split
    · exact putEntry_inner _ ht
    · exact endCancel_inner ..
  · split
    · exact (putEntry_inner _ ht).trans ((withdrawNeed_inner ..).trans (queueReport_inner ..))
    · exact (removeEntry_inner ..).trans (queueReports_inner ..)

theorem answerDeadline_inner (e : Entry) (h : P → s.ctl.state.holdsTable) : Inner P s (answerDeadline e s) := by
  have hproposal : Inner P s (proposalDeadline e s) :=
    (ownerCut_inner _ _ fun p => (h p).1).trans ((removeEntry_inner ..).trans (queueReport_inner ..))
  unfold answerDeadline
  split
  · exact hproposal
  · exact hproposal
  · exact (removeEntry_inner ..).trans (queueReport_inner ..)
  · exact cancelDeadline_inner e h
  · exact .refl s

theorem deadlineEvent_inner (id : ActionId) (hs : P → s.blocksFollow) : Inner P s (deadlineEvent id s) := by
  rcases deadlineEvent_cases id s with he | ⟨e, hent, _, he⟩ <;> rw [he]
  · exact .refl s
  · exact answerDeadline_inner e fun p => holdsTable_of_mem (hs p) (entry?_mem hent)

theorem followUpDeadline_inner (id : ActionId) (hs : P → s.blocksFollow) : Inner P s (followUpDeadline id s) := by
  rcases followUpDeadline_cases id s with he | ⟨e, hent, _, _, _, he⟩ <;> rw [he]
  · exact .refl s
  · have h : P → s.ctl.state.holdsTable := fun p => holdsTable_of_mem (hs p) (entry?_mem hent)
    split
    · exact putEntry_inner _ h
    · exact endFollowUp_inner e h

theorem answerPassedDeadlines_inner (hs : P → s.blocksFollow) : Inner P s (answerPassedDeadlines s) :=
  Inner.foldl_entries _ hs fun _ e h => answerDeadline_inner e h

/-! ### Left notices -/

theorem pruneEntry_inner (n : Station) (e : Entry) (h : P → s.ctl.state.holdsTable) : Inner P s (pruneEntry n e s) := by
  rcases pruneEntry_cases n e s with ⟨_, _, he⟩ | ⟨_, he⟩ <;> rw [he]
  · exact becomeCommitting_inner _ h
  · exact putEntry_inner _ h

/-- Entries removed one behind the other, each with its report or with none. -/
theorem removeAll_inner (report : Entry → Option ReportKind) (entries : List Entry) (s : State) :
    Inner P s (entries.foldl (fun s e => (report e).elim (removeEntry e.id s) fun k => queueReport k (removeEntry e.id s)) s) := by
  refine Inner.foldl_free (fun s e => ?_) entries s
  cases report e with
  | none => exact removeEntry_inner ..
  | some k => exact (removeEntry_inner ..).trans (queueReport_inner ..)

theorem dropHeld_inner (entries : List Entry) (s : State) : Inner P s (dropHeld entries s) :=
  removeAll_inner (fun e => some (.heldDropped e.id)) entries s

/-- A left notice prunes own entries and drops copies: it stays in the table, the needs and the reports. -/
theorem leftNotice_inner (n : Station) (hs : P → s.blocksFollow) : Inner P s (leftNotice n s) :=
  Inner.trans (Inner.foldl_entries _ hs fun _ e h => pruneEntry_inner n e h) (dropHeld_inner ..)

/-! ### The member side and the merge yield -/

theorem storeCopy_inner (e : Entry) (h : P → s.ctl.state.holdsTable) : Inner P s (storeCopy e s) := by
  rcases storeCopy_cases e s with ⟨_, he⟩ | ⟨_, he⟩ <;> rw [he]
  · exact putEntry_inner e h
  · have hmark : Inner P s { s with table.expiring := e.id :: s.table.expiring } := inner_table rfl
    exact hmark.trans (putEntry_inner e h)

theorem memberPropose_inner (sender : Station) (payload : List Byte) (h : P → s.ctl.state.holdsTable) :
    Inner P s (memberPropose sender payload s).1 := by
  unfold memberPropose
  extract_lets id
  split
  · exact .refl s
  · split
    · split
      · split
        · exact queueReport_inner ..
        · split
          · exact storeCopy_inner _ h
          · exact .refl s
      · split
        · exact storeCopy_inner _ h
        · exact .refl s
    · exact .refl s

theorem memberCommit_inner (own sender : Station) (payload : List Byte) (h : P → s.ctl.state.holdsTable) :
    Inner P s (memberCommit own sender payload s).1 := by
  unfold memberCommit
  extract_lets id set
  split
  · exact .refl s
  · split
    · split
      · exact putEntry_inner _ h
      · exact (removeEntry_inner ..).trans (queueReport_inner ..)
    all_goals exact .refl s

theorem memberCancel_inner (sender : Station) (payload : List Byte) (s : State) :
    Inner P s (memberCancel sender payload s).1 := removeEntry_inner ..

theorem discardShared_inner (s : State) : Inner P s (discardShared s) :=
  (removeAll_inner (fun _ => none) _ s).trans (queueReport_inner ..)

end Sys2Proof.Machine
end

section
/-! PROOFS. The Station Controller, the Peer Table, the Round Engine and the Capture Unit as steps that keep the five. -/

namespace Sys2Proof.Machine

variable {P : Prop} {s : State}

/-! ### Resets and moves of the station state -/

theorem powerOn_keeps (p : StrapPins) (s : State) : Keeps P s (powerOn p s) where
  queues _ := ⟨Nat.zero_le _, Nat.zero_le _, Nat.zero_le _, List.forall_mem_nil _, List.forall_mem_nil _⟩
  pins _ := ⟨fun h => (Bool.false_ne_true h).elim, fun _ => ⟨rfl, rfl, rfl⟩⟩
  counts _ := ⟨Nat.zero_le _, Nat.zero_le _, Nat.zero_le _, Nat.zero_le _, Nat.zero_le _, fun _ h => by cases h⟩
  needs _ := ⟨.nil, List.forall_mem_nil _⟩
  blocks _ _ := by
    simp [State.blocksFollow, State.reset, Line.idleLine, State.peer]

theorem releaseReset_keeps (p : StrapPins) (s : State) : Keeps P s (releaseReset p s) where
  queues := (powerOn_keeps (P := P) p s).queues
  pins _ := ⟨fun h => (Bool.false_ne_true h).elim, fun h => (Bool.false_ne_true h).elim⟩
  counts := (powerOn_keeps (P := P) p s).counts
  needs := (powerOn_keeps (P := P) p s).needs
  blocks := (powerOn_keeps (P := P) p s).blocks

theorem assertReset_keeps (s : State) : Keeps P s (assertReset s) where
  queues := id
  pins _ := ⟨fun h => (Bool.false_ne_true h).elim, fun _ => ⟨rfl, rfl, rfl⟩⟩
  counts := id
  needs := id
  blocks _ := id

theorem startStation_keeps (initial : Time) (s : State) : Keeps P s (startStation initial s) := by
  refine Keeps.trans (t := { startStation initial s with reports.records := s.reports.records })
    { queues := fun ⟨h1, _, _, h4, _⟩ => ⟨h1, Nat.zero_le _, Nat.zero_le _, h4, List.forall_mem_nil _⟩
      pins := fun ⟨_, h2⟩ => ⟨fun h => (Bool.false_ne_true h).elim, fun h => ⟨rfl, (h2 h).2⟩⟩
      counts := fun _ => ⟨Nat.zero_le _, Nat.zero_le _, Nat.zero_le _, Nat.zero_le _, Nat.zero_le _, fun _ h => by cases h⟩
      needs := fun _ => ⟨.nil, List.forall_mem_nil _⟩
      blocks := fun _ _ => ?_ } (queueReport_inner (.stateChanged s.ctl.state .listen .hostStart) _).toKeeps
  simp [State.blocksFollow, startStation, StationState.takesPart]

/-- Entry to OFF leaves every block as OFF has it, whatever went before. -/
theorem goOff_keeps (cause : MoveCause) (s : State) : Keeps P s (goOff cause s) := by
  refine Keeps.trans (t := { haltBlocks s with ctl.state := .off })
    { queues := fun ⟨h1, _, _, h4, _⟩ => ⟨h1, Nat.zero_le _, Nat.zero_le _, h4, List.forall_mem_nil _⟩
      pins := fun ⟨_, h2⟩ => ⟨fun h => (Bool.false_ne_true h).elim, fun h => ⟨rfl, (h2 h).2⟩⟩
      counts := fun ⟨_, _, _, _, h5, _⟩ => ⟨Nat.zero_le _, Nat.zero_le _, Nat.zero_le _, Nat.zero_le _, h5, fun _ h => by cases h⟩
      needs := fun _ => ⟨.nil, List.forall_mem_nil _⟩
      blocks := fun _ _ => ?_ } (queueReport_inner (.stateChanged s.ctl.state .off cause) _).toKeeps
  simp [State.blocksFollow, haltBlocks, Line.idleLine, State.peer]

theorem enterLeaving_keeps (h : P → s.ctl.state.takesPart = true) : Keeps P s (enterLeaving s) := by
  have hmove : Keeps P s
      { zeroSlew (idleRounds (clearTable s)) with
        engine.needs := []
        ctl.state := .leaving
        ctl.listenTimer := none
        ctl.leaveFailures := 0
        capture.marks := [] } := by
    refine
      { queues := fun ⟨h1, h2, _, h4, h5⟩ => ⟨h1, h2, Nat.zero_le _, h4, h5⟩
        pins := fun ⟨h1, h2⟩ => ⟨fun hd => ?_, h2⟩
        counts := id
        needs := fun _ => ⟨.nil, List.forall_mem_nil _⟩
        blocks := fun p ⟨h1, h2, h3, h4, h5, h6, _⟩ => ?_ }
    · have := h1 hd
      simp only [State.driverEnabled, Bool.and_eq_true] at this ⊢
      exact ⟨rfl, this.2⟩
    · have hoff : s.ctl.state ≠ .off := (takesPart_holdsTable (h p)).1
      simp [State.blocksFollow] at h1 h4 h5 ⊢
      simp_all
  exact hmove.trans ((queueReport_inner (.stateChanged s.ctl.state .leaving .hostLeave) _).trans (raiseNeed_inner ..)).toKeeps

/-! ### Entry to FAULT -/

theorem faulted_bounded {p : Nat} {l : Line} (h : l.bounded p) : l.faulted.bounded p := by
  unfold Line.faulted
  extract_lets r
  split
  · exact settled_bounded h
  · exact h

theorem faulted_phase {l : Line} (h : l.phase ≠ .idle) : l.faulted.phase ≠ .idle := by
  unfold Line.faulted
  extract_lets r
  split
  · exact settled_phase r
  · exact h

theorem faulted_driver (l : Line) : l.faulted.driver = false := by
  unfold Line.faulted
  extract_lets r
  split <;> rfl

/-- The blocks and the station state of an entry to FAULT, without its reports. -/
def intoFault (cause : FaultCause) (s : State) : State :=
  { faultBlocks s with
    ctl.state := .fault
    ctl.faultCause := cause }

theorem intoFault_keeps {cause : FaultCause} (hcause : cause ≠ .noFault) (h : P → s.ctl.state ≠ .off) :
    Keeps P s (intoFault cause s) where
  queues := fun ⟨h1, h2, _, h4, h5⟩ => ⟨h1, h2, Nat.zero_le _, h4, h5⟩
  pins := fun ⟨_, h2⟩ =>
    have hd : (intoFault cause s).line.driver = false := faulted_driver s.line
    ⟨fun h => (Bool.false_ne_true (hd ▸ h)).elim, fun hlow => ⟨hd, (h2 hlow).2⟩⟩
  counts := fun hc => countsBounded_iff.2 ⟨faulted_bounded (countsBounded_iff.1 hc).1, (countsBounded_iff.1 hc).2⟩
  needs _ := ⟨.nil, List.forall_mem_nil _⟩
  blocks p := fun ⟨h1, _, _, h4, h5, _⟩ => by
    have hphase : s.line.faulted.phase ≠ .idle := faulted_phase fun hi => h p (h1.2 hi)
    have hoff := h p
    simp_all [State.blocksFollow, intoFault, faultBlocks, StationState.takesPart]

/-- The reports of an entry to FAULT stand behind the blocks' part, in either order (R108). -/
theorem enterFault_eq (cause : FaultCause) (move : MoveCause) (o : FaultOrder) (s : State) :
    enterFault cause move o s =
      match o with
      | .stateFirst =>
        queueReports (faultReports s.engine.needs s.table.entries)
          (queueReport (.stateChanged s.ctl.state .fault move) (intoFault cause s))
      | .protocolFirst =>
        queueReport (.stateChanged s.ctl.state .fault move)
          (intoFault cause (queueReports (faultReports s.engine.needs s.table.entries) s)) := by
  cases o with
  | stateFirst => rfl
  | protocolFirst => simp only [enterFault, queueReports_eq]; rfl

theorem enterFault_keeps {cause : FaultCause} (hcause : cause ≠ .noFault) (move : MoveCause) (o : FaultOrder)
    (h : P → s.ctl.state ≠ .off) : Keeps P s (enterFault cause move o s) := by
  rw [enterFault_eq]
  cases o with
  | stateFirst => exact (intoFault_keeps hcause h).trans ((queueReport_inner ..).trans (queueReports_inner ..)).toKeeps
  | protocolFirst =>
    have hreports := queueReports_inner (P := P) (faultReports s.engine.needs s.table.entries) s
    exact hreports.toKeeps.trans ((intoFault_keeps hcause (hreports.on h)).trans (queueReport_inner ..).toKeeps)

/-! ### The round state and LISTEN -/

theorem clearSamples_inner (h : P → s.ctl.state ≠ .off) : Inner P s (clearSamples s) :=
  have hpeers : Inner P s { s with peers := s.peers.map fun p => { p with sample := none } } := inner_peers h
  hpeers.trans (inner_rounds (fun _ => .inl) fun _ hw => .inr ⟨hw, rfl⟩)

theorem resetRounds_inner (h : P → s.ctl.state.takesPart = true) : Inner P s (resetRounds s) := by
  have hclear : Inner P s (clearSamples (withdrawNeed .roundEngine s)) :=
    (withdrawNeed_inner ..).trans (clearSamples_inner fun p => (takesPart_holdsTable (h p)).1)
  exact hclear.trans (inner_rounds (fun p _ => .inr (h p)) fun _ _ => .inl rfl)

/-- The end of LISTEN: the timer stops, and the station takes part. -/
theorem keeps_leaveListen {new : StationState} (hnew : new.takesPart = true) (h : P → s.ctl.state = .listen) :
    Keeps P s { s with ctl.listenTimer := none, ctl.state := new } where
  queues := id
  pins := fun ⟨h1, h2⟩ => by
    refine ⟨fun hd => ?_, h2⟩
    have := h1 hd
    simp only [State.driverEnabled, Bool.and_eq_true] at this ⊢
    exact ⟨takesPart_drives hnew, this.2⟩
  counts := id
  needs := fun ⟨h1, h2⟩ => ⟨h1, fun n hn => ⟨(h2 n hn).1, takesPart_keeps_needs hnew n.kind⟩⟩
  blocks p := fun ⟨h1, h2, h3, h4, h5, h6, h7, h8, h9, h10, h11⟩ => by
    obtain ⟨hnOff, hnLeaving⟩ := takesPart_holdsTable hnew
    obtain ⟨_, hnFault⟩ := takesPart_holdsFrame hnew
    have hnListen : new ≠ .listen := by rintro rfl; cases hnew
    have hs := h p
    refine ⟨?_, ?_, ?_, ?_, ?_, ?_, ?_, ?_, h9, ?_, ?_⟩ <;> simp_all

theorem listenTimeout_keeps (s : State) : Keeps P s (listenTimeout s) := by
  unfold listenTimeout
  split
  · rename_i hexp
    have hlisten : s.ctl.state = .listen := by
      unfold State.listenExpired at hexp
      split at hexp
      · simp at hexp; exact hexp.1
      · cases hexp
    have hmove := keeps_leaveListen (P := P) (new := .synced) rfl fun _ => hlisten
    exact hmove.trans ((queueReport_inner (.stateChanged s.ctl.state .synced .founded) _).trans (resetRounds_inner fun _ => rfl)).toKeeps
  · exact (Inner.refl s).toKeeps

theorem requestStep_inner (st : TimeStep) (s : State) : Inner P s (requestStep st s) := by
  unfold requestStep; split
  · exact inner_base rfl
  · exact .refl s

theorem adopt_keeps (offset : Int) (h : P → s.ctl.state = .listen) : Keeps P s (adopt offset s) := by
  have hstep := requestStep_inner (P := P) ⟨offset, .adopt⟩ s
  have hctl : (requestStep ⟨offset, .adopt⟩ s).ctl = s.ctl := by unfold requestStep; split <;> rfl
  exact hstep.toKeeps.trans ((keeps_leaveListen (new := .joining) rfl (hctl ▸ h)).trans (queueReport_inner ..).toKeeps)

/-! ### The Peer Table -/

theorem setPeer_inner (n : Station) (p : Peer) (h : P → s.ctl.state ≠ .off) : Inner P s (setPeer n p s) := inner_peers h

theorem joinedNotice_inner (s : State) : Inner P s (joinedNotice s) := by
  unfold joinedNotice
  split
  case h_1 => exact inner_rounds (fun _ => .inl) fun _ hw => .inr ⟨hw, rfl⟩
  case h_2 hst => exact moveState_inner rfl _ fun _ => by rw [hst]; rfl
  all_goals exact .refl s

theorem takeSample_inner (n : Station) (c : SyncContent) (offset : Int) (h : P → s.ctl.state ≠ .off) :
    Inner P s (takeSample n c offset s) := by
  unfold takeSample
  extract_lets p
  split
  · exact (setPeer_inner n _ h).trans (inner_rounds (fun _ => .inl) fun _ hw => .inr ⟨hw, rfl⟩)
  · exact setPeer_inner n _ h

theorem inPart_on (h : P → s.inPart) (p : P) : s.ctl.state ≠ .off := (takesPart_holdsTable (h p).2).1

theorem setMember_inner (n : Station) (member : Bool) (h : P → s.inPart) : Inner P s (setMember n member s) := by
  unfold setMember
  extract_lets p t
  have ht : Inner P s t := setPeer_inner n _ (inPart_on h)
  split
  · exact ht.trans ((queueReport_inner ..).trans (joinedNotice_inner _))
  · split
    · exact ht.trans (leftNotice_inner n fun p => (ht.inPart h p).1)
    · exact .refl s

theorem syncReceived_inner (n : Station) (c : SyncContent) (offset : Int) (h : P → s.inPart) :
    Inner P s (syncReceived n c offset s) := by
  have hpeer : Inner P s (setPeer n ((s.peer n).heard n c) s) := setPeer_inner n _ (inPart_on h)
  have hsample := hpeer.trans (takeSample_inner n c offset (hpeer.on (inPart_on h)))
  exact hsample.trans (setMember_inner n _ (hsample.inPart h))

theorem syncHeard_keeps (n : Station) (c : SyncContent) (offset : Int) (h : P → s.ctl.state = .listen) :
    Keeps P s (syncHeard n c offset s) := by
  have hpeer : Keeps P s (setPeer n ((s.peer n).heard n c) s) :=
    (setPeer_inner n _ fun p hoff => by simp [h p] at hoff).toKeeps
  unfold syncHeard
  extract_lets t
  split
  · exact hpeer
  · exact hpeer.trans (adopt_keeps offset h)
  · exact hpeer.trans (adopt_keeps offset h)

theorem dropPeer_inner (n : Station) (cause : DropCause) (h : P → s.inPart) : Inner P s (dropPeer n cause s) := by
  unfold dropPeer
  extract_lets t
  have ht : Inner P s t := (setPeer_inner n _ (inPart_on h)).trans (queueReport_inner ..)
  split
  · exact ht.trans (leftNotice_inner n fun p => (ht.inPart h p).1)
  · exact ht

theorem leaveReceived_inner (n : Station) (h : P → s.inPart) : Inner P s (leaveReceived n s) := by
  unfold leaveReceived
  split
  · have hsample : Inner P s { s with rounds.samples := dropSample n s.rounds.samples } :=
      inner_rounds (fun _ => .inl) fun _ hw => .inr ⟨hw, rfl⟩
    exact hsample.trans (dropPeer_inner n _ (hsample.inPart h))
  · exact .refl s

theorem countMiss_inner (n : Station) (h : P → s.inPart) : Inner P s (countMiss n s) := by
  unfold countMiss
  extract_lets p
  split
  · exact dropPeer_inner n _ h
  · exact setPeer_inner n _ (inPart_on h)

theorem judgeMember_inner (n : Station) (residual : Int) (h : P → s.inPart) : Inner P s (judgeMember n residual s) := by
  unfold judgeMember
  extract_lets p
  split
  · split
    · have hpeer := setPeer_inner n { p with outlierRun := 4, suspect := true, member := false, goodRun := 0 } (inPart_on h)
      have ht := hpeer.trans (queueReport_inner (.peerDropped n .suspect) _)
      exact ht.trans (leftNotice_inner n fun p => (ht.inPart h p).1)
    · exact setPeer_inner n _ (inPart_on h)
  · exact setPeer_inner n _ (inPart_on h)

theorem judgeSuspect_inner (n : Station) (residual : Int) (h : P → s.inPart) : Inner P s (judgeSuspect n residual s) := by
  unfold judgeSuspect
  extract_lets p member t
  split
  · exact setPeer_inner n _ (inPart_on h)
  · split
    · have ht : Inner P s t := (setPeer_inner n _ (inPart_on h)).trans (queueReport_inner ..)
      split
      · exact ht.trans (joinedNotice_inner t)
      · exact ht
    · exact setPeer_inner n _ (inPart_on h)

theorem judgePeer_inner (c : Int) (n : Station) (h : P → s.inPart) : Inner P s (judgePeer c n s) := by
  unfold judgePeer
  extract_lets p t
  split
  · exact .refl s
  · exact countMiss_inner n h
  · have ht : Inner P s t := setPeer_inner n _ (inPart_on h)
    split
    · exact ht.trans (judgeMember_inner n _ (ht.inPart h))
    · split
      · exact ht.trans (judgeSuspect_inner n _ (ht.inPart h))
      · exact ht

/-! ### The Round Engine -/

theorem roundStart_inner (s : State) : Inner P s (roundStart s) := by
  rcases roundStart_cases s with he | ⟨hdue, he⟩ <;> rw [he]
  · exact .refl s
  · have hactive : s.rounds.active = true := by
      simp only [State.roundStartDue, Bool.and_eq_true] at hdue
      exact hdue.1.1
    have hround : Inner P s { s with rounds := { s.rounds with
        round := roundOf s.cfg s.now, windowOpen := true, syncSent := false } } :=
      inner_rounds (fun _ => .inl) fun _ _ => .inl hactive
    exact hround.trans (raiseNeed_inner ..)

theorem closeStage1_inner (s : State) : Inner P s (closeStage1 s) := by
  unfold closeStage1
  extract_lets _ t
  have ht : Inner P s t := inner_rounds (fun _ => .inl) fun _ hw => (Bool.false_ne_true hw).elim
  split
  · exact ht
  · exact ht.trans (withdrawNeed_inner ..)

theorem requestSlew_inner (q : Int) (s : State) : Inner P s (requestSlew q s).1 := by
  unfold requestSlew; split
  · exact inner_base rfl
  · exact .refl s

theorem requestTrim_inner (v : Int) (s : State) : Inner P s (requestTrim v s).1 := by
  unfold requestTrim; split
  · exact inner_base rfl
  · exact .refl s

theorem closeStage3_inner (c : Int) (n : Nat) (s : State) : Inner P s (closeStage3 c n s) := by
  unfold closeStage3
  extract_lets q a b
  have hb : Inner P s b.1 := by
    refine (requestSlew_inner q s).trans ?_
    unfold b; split
    · exact requestTrim_inner ..
    · exact .refl _
  split
  · exact hb.trans (queueReport_inner ..)
  · exact hb

theorem closeStage4_inner (c : Int) (order : List Station) (h : P → s.inPart) : Inner P s (closeStage4 c order s) :=
  Inner.foldl (G := State.inPart) Inner.inPart (fun _ n h => judgePeer_inner c n h) order s h

theorem yieldNotices_inner (left : List Station) (s : State) (h : P → s.inPart) : Inner P s (yieldNotices left s) :=
  Inner.foldl (G := State.inPart) Inner.inPart (fun _ n h => leftNotice_inner n fun p => (h p).1) left s h

/-- The three parts of a yield are inner steps in each of their orders. -/
theorem yieldParts_inner (order : YieldOrder) (left : List Station) (h : P → s.inPart) : Inner P s (yieldParts order left s) := by
  have notices := yieldNotices_inner (P := P) left
  have discard (s : State) (_ : P → s.inPart) : Inner P s (discardShared s) := discardShared_inner s
  have move (s : State) (h : P → s.inPart) : Inner P s (yieldMove s) := moveState_inner rfl _ fun p => (h p).2
  cases order with
  | noticesDiscardMove => exact Inner.comp (Inner.comp notices discard) move s h
  | noticesMoveDiscard => exact Inner.comp (Inner.comp notices move) discard s h
  | discardNoticesMove => exact Inner.comp (Inner.comp discard notices) move s h
  | discardMoveNotices => exact Inner.comp (Inner.comp discard move) notices s h
  | moveNoticesDiscard => exact Inner.comp (Inner.comp move notices) discard s h
  | moveDiscardNotices => exact Inner.comp (Inner.comp move discard) notices s h

theorem yieldTo_inner (k : Candidate) (o : CloseOrder) (h : P → s.inPart) : Inner P s (yieldTo k o s) := by
  unfold yieldTo
  extract_lets left t
  have hstep := requestStep_inner (P := P) ⟨k.sample, .merge⟩ s
  have ht : Inner P s t := hstep.trans (inner_peers (hstep.on (inPart_on h)))
  have hrounds : Inner P s { t with rounds.joinRun := 0 } :=
    ht.trans (inner_rounds (fun _ => .inl) fun _ hw => .inr ⟨hw, rfl⟩)
  exact hrounds.trans (yieldParts_inner o.yield left (hrounds.inPart h))

theorem closeStage6_inner (c : Int) (s : State) : Inner P s (closeStage6 c s) := by
  unfold closeStage6
  split
  · rename_i hst
    split
    · exact inner_rounds (fun _ => .inl) fun _ hw => .inr ⟨hw, rfl⟩
    · split
      · have ht : Inner P s { s with rounds := { s.rounds with
            joinRun := 0, peered := s.rounds.peered || s.members != 0 } } := inner_rounds (fun _ => .inl) fun _ hw => .inr ⟨hw, rfl⟩
        exact ht.trans (moveState_inner rfl _ (ht.takesPart fun _ => by rw [hst]; rfl))
      · exact inner_rounds (fun _ => .inl) fun _ hw => .inr ⟨hw, rfl⟩
  · exact .refl s

theorem closeStage7_inner (before : StationState) (s : State) : Inner P s (closeStage7 before s) := by
  unfold closeStage7
  split
  · rename_i hc
    obtain ⟨_, hst, _⟩ := hc
    exact moveState_inner rfl _ fun _ => by rw [hst]; rfl
  · exact .refl s

theorem closeRound_inner (o : CloseOrder) (h : P → s.inPart) : Inner P s (closeRound o s) := by
  unfold closeRound
  extract_lets used c s1 _ s2 s3 s4
  have h2 : Inner P s s2 := (closeStage1_inner s).trans (inner_rounds (fun _ => .inl) fun _ hw => .inr ⟨hw, rfl⟩)
  have h3 : Inner P s s3 := h2.trans (closeStage3_inner ..)
  have h4 : Inner P s s4 := h3.trans (closeStage4_inner c _ (h3.inPart h))
  have h567 : Inner P s (closeStages567 c o s.ctl.state s4) := by
    refine h4.trans ?_
    unfold closeStages567
    split
    · exact yieldTo_inner _ o (h4.inPart h)
    · exact (closeStage6_inner c s4).trans (closeStage7_inner ..)
  exact h567.trans (clearSamples_inner (h567.on (inPart_on h)))

theorem roundClose_inner (o : CloseOrder) (hs : P → s.blocksFollow) : Inner P s (roundClose o s) := by
  rcases roundClose_cases o s with he | ⟨hdue, he⟩ <;> rw [he]
  · exact .refl s
  · simp only [State.closeDue, Bool.and_eq_true] at hdue
    exact closeRound_inner o fun p => ⟨hs p, takesPart_of_active (hs p) hdue.1.1.1⟩

theorem tableNotice_inner (st : TimeStep) (hs : P → s.blocksFollow) : Inner P s (tableNotice st s) := by
  unfold tableNotice
  extract_lets t
  have ht : Inner P s t := inner_table rfl
  split
  · have hd := ht.trans (answerPassedDeadlines_inner (ht.sound hs))
    exact hd.trans (fireAllLate_inner (hd.sound hs))
  · exact ht

theorem roundsNotice_inner (s : State) : Inner P s (roundsNotice s) := by
  unfold roundsNotice
  split
  · rename_i hp
    exact resetRounds_inner fun _ => hp
  · exact .refl s

theorem stepNotice_inner (steppedFirst : Bool) (hs : P → s.blocksFollow) : Inner P s (stepNotice steppedFirst s) := by
  unfold stepNotice
  split
  · rename_i st _
    extract_lets t stepped
    have ht : Inner P s t := inner_base rfl
    have hbody : Inner P s (if steppedFirst then tableNotice st (stepped t) else stepped (tableNotice st t)) := by
      split
      · have hst := ht.trans (queueReport_inner (.stepped st.amount st.cause) t)
        exact hst.trans (tableNotice_inner st (hst.sound hs))
      · exact ht.trans ((tableNotice_inner st (ht.sound hs)).trans (queueReport_inner ..))
    refine hbody.trans ?_
    exact roundsNotice_inner _
  · exact .refl s

/-! ### The Capture Unit -/

theorem capture_lose_le (r : CaptureRecord) : r.lose.loss ≤ 255 := Nat.min_le_left ..

theorem joinCapture_inner {r : CaptureRecord} (hr : r.loss = 0) (h : P → s.ctl.state ≠ .off) : Inner P s (joinCapture r s) :=
  inner_capture
    (fun hlen hloss => ⟨joinQueue_length_le hlen, joinQueue_forall hloss (by omega) fun r _ => capture_lose_le r⟩)
    id (fun p => .inl (h p)) fun _ => .inr id

theorem inner_marks {marks : List Mark} (hlen : s.capture.marks.length ≤ 4 → marks.length ≤ 4)
    (h : P → s.ctl.state.takesPart = true ∨ (s.capture.marks = [] → marks = [])) : Inner P s { s with capture.marks := marks } :=
  inner_capture (fun h1 h2 => ⟨h1, h2⟩) hlen (fun _ => .inr id) h

theorem recordEdge_inner (i : Channel) (e : CaptureEdge) (h : P → s.ctl.state ≠ .off) : Inner P s (recordEdge i e s) := by
  unfold recordEdge
  extract_lets st placed t
  have ht : Inner P s t := joinCapture_inner rfl h
  split
  · rename_i hp
    simp only [placed, State.placesMark, Bool.and_eq_true, decide_eq_true_eq] at hp
    obtain ⟨⟨_, hpart⟩, hroom⟩ := hp
    refine ht.trans ?_
    unfold joinMarks
    extract_lets _ u
    have hu : Inner P t u := inner_marks (fun _ => (List.length_append ..).trans_le hroom) fun _ => .inl hpart
    split
    · exact hu.trans (raiseNeed_inner ..)
    · exact hu
  · exact ht

theorem captureEdge_inner (s : State) : Inner P s (captureEdge s) := by
  rcases captureEdge_cases s with he | ⟨i, e, _, he⟩ <;> rw [he]
  · exact .refl s
  · have ht : Inner P s { s with capture.edges := s.capture.edges.set i none } :=
      inner_capture (fun h1 h2 => ⟨h1, h2⟩) id (fun _ => .inr id) fun _ => .inr id
    split
    · rename_i hc
      exact ht.trans (recordEdge_inner i e fun _ hoff => by simp [show s.ctl.state = .off from hoff, StationState.captures] at hc)
    · exact ht

theorem memberMark_inner (sender : Station) (payload : List Byte) (h : P → s.ctl.state ≠ .off) :
    Inner P s (memberMark sender payload s).1 := by
  unfold memberMark
  split
  · exact joinCapture_inner rfl h
  · exact .refl s

theorem markCompleted_inner (s : State) : Inner P s (markCompleted s) := by
  unfold markCompleted
  extract_lets _ t
  have ht : Inner P s t := inner_marks (fun h => by simp; omega) fun _ => .inr fun hm => by simp [hm]
  split
  · exact ht
  · exact ht.trans (raiseNeed_inner ..)

end Sys2Proof.Machine
end

section
/-! PROOFS. The Frame Engine and the Line Interface as steps that keep the five. -/

namespace Sys2Proof.Machine

variable {P : Prop} {s : State}

/-! ### Frames begin -/

theorem inner_latch {latch : Option Latch} : Inner P s { s with base.latch := latch } := inner_base rfl

theorem latchFrameStart_inner (s : State) : Inner P s (latchFrameStart s) := by
  unfold latchFrameStart
  split <;> exact inner_latch

theorem beginCell_inner (h : P → s.ctl.state ≠ .off) : Inner P s { s with line := s.line.beginCell s.period } := by
  refine inner_line .inl (fun hb => ?_) h fun _ => by simp [Line.beginCell]
  obtain ⟨h1, h2, _⟩ := hb
  exact ⟨h1, h2, Nat.zero_le _, Nat.zero_le _, fun i hi => by cases hi; exact ⟨rfl, by omega, rfl⟩⟩

theorem driveNow_inner (h : P → s.ctl.state ≠ .off) : Inner P s (driveNow s) := by
  unfold driveNow
  split
  · rename_i hen
    split
    · exact inner_line (fun _ => .inr hen) id h id
    · exact inner_line (fun _ => .inr hen) (fun ⟨_, _, hrest⟩ => ⟨Nat.zero_le _, Nat.min_le_left .., hrest⟩) h id
  · exact .refl s

theorem openFrame_inner {f : Frame} (h : P → s.ctl.state.holdsFrame) : Inner P s { s with engine.frame := some f } :=
  inner_frame fun p => .inl (h p)

theorem openTransmit_inner (need : Need) (h : P → s.ctl.state.holdsFrame) : Inner P s (openTransmit need s) :=
  (openFrame_inner (f := Frame.opened (.transmit need (frameCells need s))) h).trans
    (inner_pattern (finding := s.line.finding) fun p => (h p).1)

theorem Inner.holdsFrame {t : State} (h : Inner P s t) (hs : P → s.ctl.state.holdsFrame) : P → t.ctl.state.holdsFrame :=
  h.guard (fun _ => takesPart_holdsFrame) hs

theorem drives_holdsFrame {st : StationState} (h : st.drives = true) : st.holdsFrame := by
  constructor <;> rintro rfl <;> cases h

theorem access_inner (s : State) : Inner P s (access s) := by
  rcases access_cases s with he | ⟨need, hm, _, he⟩ <;> rw [he]
  · exact .refl s
  · simp only [State.mayAccess, Bool.and_eq_true] at hm
    have hframe : P → s.ctl.state.holdsFrame := fun _ => drives_holdsFrame hm.1.1.1
    have hcell := beginCell_inner (P := P) fun p => (hframe p).1
    have hdrive := hcell.trans (driveNow_inner (hcell.on fun p => (hframe p).1))
    exact hdrive.trans ((openTransmit_inner need (hdrive.holdsFrame hframe)).trans (latchFrameStart_inner _))

/-- A frame start begins a cell, and opens a frame in the states that hold one. -/
theorem takeFrameStart_inner (h : P → s.ctl.state ≠ .off) : Inner P s (takeFrameStart s) := by
  unfold takeFrameStart
  extract_lets t
  have ht : Inner P s t := (beginCell_inner h).trans (latchFrameStart_inner _)
  have hopen (hst : s.ctl.state.holdsFrame) (f : Frame) : Inner P s { t with engine.frame := some f } :=
    ht.trans (openFrame_inner (ht.holdsFrame fun _ => hst))
  have hjoin (hst : s.ctl.state.holdsFrame) :
      Inner P s
        (match selectNeed s.engine.needs with
        | some need => openTransmit need t
        | none => { t with engine.frame := some (Frame.opened .receive) }) := by
    split
    · exact ht.trans (openTransmit_inner _ (ht.holdsFrame fun _ => hst))
    · exact hopen hst _
  split
  case h_1 => exact ht
  case h_2 => exact ht
  case h_3 hst => exact hopen (by rw [hst]; exact ⟨by simp, by simp⟩) _
  case h_4 hst => exact hjoin (by rw [hst]; exact ⟨by simp, by simp⟩)
  case h_5 hst => exact hjoin (by rw [hst]; exact ⟨by simp, by simp⟩)
  case h_6 hst => exact hjoin (by rw [hst]; exact ⟨by simp, by simp⟩)
  case h_7 hst => exact hjoin (by rw [hst]; exact ⟨by simp, by simp⟩)

theorem frameStart_inner (hs : P → s.blocksFollow) : Inner P s (frameStart s) := by
  unfold frameStart
  split
  · rename_i hf
    exact takeFrameStart_inner fun p => on_of_finding (hs p) hf
  · exact .refl s

/-! ### Outcomes -/

theorem leaveFailed_keeps (s : State) : Keeps P s (leaveFailed s) := by
  unfold leaveFailed
  split
  · exact goOff_keeps ..
  · exact inner_ctl.toKeeps

theorem reportFailed_keeps (need : Need) (hs : P → s.blocksFollow) : Keeps P s (reportFailed need s) := by
  unfold reportFailed
  split
  · exact (Inner.refl s).toKeeps
  · exact (Inner.refl s).toKeeps
  · exact (entryFailed_inner _ _ _ hs).toKeeps
  · split
    · exact leaveFailed_keeps s
    · exact (Inner.refl s).toKeeps

theorem reportCompleted_keeps (need : Need) (acks : StationSet) (held : Bool) (hs : P → s.blocksFollow) :
    Keeps P s (reportCompleted need acks held s) := by
  have hidle : Keeps P s s := (Inner.refl s).toKeeps
  unfold reportCompleted
  split
  · split
    · exact Inner.toKeeps (inner_rounds (fun _ => .inl) fun _ hw => .inr ⟨hw, rfl⟩)
    · exact hidle
  · split
    · exact (markCompleted_inner s).toKeeps
    · exact hidle
  · exact (entryCompleted_inner _ _ _ _ hs).toKeeps
  · split
    · exact goOff_keeps ..
    · exact hidle

theorem reportCheckComplete_inner (need : Need) (hs : P → s.blocksFollow) : Inner P s (reportCheckComplete need s) := by
  unfold reportCheckComplete
  split
  · exact entryCheckComplete_inner _ _ hs
  all_goals exact .refl s

theorem mapFrame_inner (g : Frame → Frame) (s : State) : Inner P s { s with engine.frame := s.engine.frame.map g } :=
  inner_frame fun _ => .inr fun h => by simp [h]

theorem clearFinding_inner (h : P → s.ctl.state ≠ .off) : Inner P s (clearFinding s) := inner_line .inl id h id

theorem atAcceptance_inner (h : P → s.ctl.state ≠ .off) : Inner P s (atAcceptance s) :=
  (mapFrame_inner _ s).trans (clearFinding_inner h)

theorem checkComplete_inner (hs : P → s.blocksFollow) : Inner P s (checkComplete s) := by
  unfold checkComplete
  split
  · rename_i need _ hf _
    extract_lets t
    have ht : Inner P s t := atAcceptance_inner fun p => on_of_finding (hs p) hf
    have hlatch : Inner P s (if need.kind = .sync then { t with base.latch := none } else t) := by
      split
      · exact ht.trans inner_latch
      · exact ht
    exact hlatch.trans (reportCheckComplete_inner need (hlatch.sound hs))
  · exact .refl s

theorem frameCompleted_keeps (hs : P → s.blocksFollow) : Keeps P s (frameCompleted s) := by
  unfold frameCompleted
  split
  · rename_i f hf hframe
    split
    · rename_i need _ _
      extract_lets t
      have ht : Inner P s t := (endFrame_inner fun p => on_of_finding (hs p) hf).trans (removeNeed_inner need _)
      have hrun : Inner P s { t with engine.run := 0 } := ht.trans (inner_run (Nat.zero_le _))
      exact hrun.toKeeps.trans (reportCompleted_keeps _ _ _ (hrun.sound hs))
    · exact (Inner.refl s).toKeeps
  · exact (Inner.refl s).toKeeps

/-! ### Failures and cuts -/

theorem countFailure_inner (s : State) : Inner P s (countFailure s) := inner_run (Nat.min_le_left ..)

theorem faultAtLimit_keeps (o : FaultOrder) (s : State) : Keeps P s (faultAtLimit o s) := by
  unfold faultAtLimit
  split
  · rename_i hc
    exact enterFault_keeps (by simp) _ o fun _ => (drives_holdsFrame hc.2).1
  · exact (Inner.refl s).toKeeps

theorem failOwn_keeps (o : FaultOrder) (need : Need) (hs : P → s.blocksFollow) : Keeps P s (failOwn o need s) :=
  have hcount := countFailure_inner (P := P) s
  hcount.toKeeps.trans ((reportFailed_keeps need (hcount.sound hs)).trans (faultAtLimit_keeps o _))

theorem cutByLine_keeps (o : FaultOrder) (hs : P → s.blocksFollow) (h : P → s.ctl.state ≠ .off) : Keeps P s (cutByLine o s) := by
  have hend := endFrame_inner h
  unfold cutByLine
  split
  · exact hend.toKeeps.trans (failOwn_keeps o _ (hend.sound hs))
  · exact hend.toKeeps
  · exact hend.toKeeps

theorem restoreQuiet_inner (h : P → s.ctl.state ≠ .off) : Inner P s (restoreQuiet s) :=
  inner_line .inl (fun ⟨_, h2, _⟩ => ⟨Nat.le_refl _, h2, Nat.zero_le _, Nat.zero_le _, fun _ hi => by cases hi⟩) h fun _ => by simp

theorem noFrame_inner (s : State) : Inner P s { s with engine.frame := none, base.latch := none } :=
  Inner.trans (inner_frame fun _ => .inr fun _ => rfl) inner_latch

theorem startBitRecessive_keeps (o : FaultOrder) (driven : Bool) (hs : P → s.blocksFollow) (h : P → s.ctl.state ≠ .off) :
    Keeps P s (startBitRecessive o driven s) := by
  unfold startBitRecessive
  split
  · have hlatch : Inner P s { s with base.latch := none } := inner_latch
    exact (hlatch.trans (restoreQuiet_inner h)).toKeeps
  · split
    · extract_lets _ _ t
      have ht : Inner P s t := (noFrame_inner s).trans (restoreQuiet_inner h)
      split
      · split
        · exact ht.toKeeps.trans (failOwn_keeps o _ (ht.sound hs))
        · exact ht.toKeeps
      · exact ht.toKeeps
    · exact cutByLine_keeps o hs h

theorem falseStart_keeps (o : FaultOrder) (hs : P → s.blocksFollow) : Keeps P s (falseStart o s) := by
  unfold falseStart
  split
  · rename_i hf
    exact startBitRecessive_keeps o _ hs fun p => on_of_finding (hs p) hf
  · exact (Inner.refl s).toKeeps

theorem stopError_keeps (o : FaultOrder) (hs : P → s.blocksFollow) : Keeps P s (stopError o s) := by
  unfold stopError
  split
  · rename_i hf
    exact cutByLine_keeps o hs fun p => on_of_finding (hs p) hf
  · exact (Inner.refl s).toKeeps

theorem gapExpiry_keeps (o : FaultOrder) (hs : P → s.blocksFollow) : Keeps P s (gapExpiry o s) := by
  unfold gapExpiry
  split
  · rename_i hf
    exact cutByLine_keeps o hs fun p => on_of_finding (hs p) hf
  · exact (Inner.refl s).toKeeps

theorem lineQuiet_inner (hs : P → s.blocksFollow) : Inner P s (lineQuiet s) := by
  unfold lineQuiet
  split
  · rename_i hdue
    simp only [State.quietDue, Bool.and_eq_true, bne_iff_ne] at hdue
    refine inner_line .inl (fun ⟨h1, h2, h3, h4, h5⟩ => ⟨h1, h2, h3, h4, fun i hi => ?_⟩)
      (fun p => on_of_phase (hs p) hdue.1.1) fun hi => ?_
    · obtain ⟨hcell, hrest⟩ := h5 i hi
      exact ⟨by simp [hcell], hrest⟩
    · simp only; split
      · simp
      · exact hi
  · exact .refl s

theorem releaseDriver_inner (h : P → s.ctl.state ≠ .off) : Inner P s (releaseDriver s) :=
  inner_line (fun hd => (Bool.false_ne_true hd).elim) id h id

theorem lineStuck_keeps (o : FaultOrder) (hs : P → s.blocksFollow) : Keeps P s (lineStuck o s) := by
  unfold lineStuck
  split
  · rename_i hdue
    simp only [State.stuckDue, Bool.and_eq_true, bne_iff_ne] at hdue
    have hon : P → s.ctl.state ≠ .off := fun p => on_of_phase (hs p) hdue.1.1
    have hstuck : Inner P s { s with line.condition := .stuck } := inner_line .inl id hon id
    have hfree := hstuck.trans (releaseDriver_inner hon)
    exact hfree.toKeeps.trans (cutByLine_keeps o (hfree.sound hs) hon)
  · exact (Inner.refl s).toKeeps

theorem giveUpSending_inner (h : P → s.ctl.state ≠ .off) : Inner P s (giveUpSending s) :=
  (mapFrame_inner _ s).trans (inner_pattern h)

theorem arbitrationLost_inner (hs : P → s.blocksFollow) : Inner P s (arbitrationLost s) := by
  unfold arbitrationLost
  split
  · rename_i hf _
    exact giveUpSending_inner fun p => on_of_finding (hs p) hf
  · exact .refl s

theorem collision_keeps (o : FaultOrder) (hs : P → s.blocksFollow) : Keeps P s (collision o s) := by
  unfold collision
  split
  · rename_i hf _
    have hgive := giveUpSending_inner fun p => on_of_finding (hs p) hf
    exact hgive.toKeeps.trans (failOwn_keeps o _ (hgive.sound hs))
  · exact (Inner.refl s).toKeeps

theorem releaseOrder_inner (h : P → s.ctl.state ≠ .off) : Inner P s (releaseOrder s) := inner_line .inl id h id

theorem deadBit_keeps (o : FaultOrder) (hs : P → s.blocksFollow) (h : P → s.ctl.state ≠ .off) : Keeps P s (deadBit o s) := by
  have hrel := releaseOrder_inner h
  unfold deadBit
  split
  · have hend := hrel.trans (endFrame_inner h)
    exact hend.toKeeps.trans (failOwn_keeps o _ (hend.sound hs))
  · exact ((hrel.trans (clearFinding_inner h)).trans (countFailure_inner _)).toKeeps.trans (faultAtLimit_keeps o _)
  · exact (Inner.refl s).toKeeps

theorem driverFailure_keeps (o : FaultOrder) (hs : P → s.blocksFollow) : Keeps P s (driverFailure o s) := by
  unfold driverFailure
  split
  · rename_i hf
    exact deadBit_keeps o hs fun p => on_of_finding (hs p) hf
  · rename_i hf
    exact startBitRecessive_keeps o _ hs fun p => on_of_finding (hs p) hf
  · exact (Inner.refl s).toKeeps

theorem receivedFrameEnd_inner (hs : P → s.blocksFollow) : Inner P s (receivedFrameEnd s) := by
  unfold receivedFrameEnd
  split
  · rename_i hf
    exact endFrame_inner fun p => on_of_finding (hs p) hf
  · exact .refl s

theorem lengthAbove24_inner (hs : P → s.blocksFollow) : Inner P s (lengthAbove24 s) := by
  unfold lengthAbove24
  split
  · rename_i hf
    exact endFrame_inner fun p => on_of_finding (hs p) hf
  · exact .refl s

/-! ### Acceptance -/

theorem ackFrame_inner (h : P → s.ctl.state ≠ .off) : Inner P s (ackFrame s) :=
  (mapFrame_inner _ s).trans (inner_line .inl id h id)

/-- What a block makes of an accepted frame: an inner step in JOINING, SYNCED and HOLDOVER, and one that keeps the five in LISTEN. -/
theorem handOn_keeps {take hear : State → State × Bool} (hs : P → s.blocksFollow)
    (htake : (P → s.inPart) → Inner P s (take s).1) (hhear : (P → s.ctl.state = .listen) → Keeps P s (hear s).1) :
    Keeps P s (handOn take hear s) := by
  unfold handOn
  split
  · rename_i hpart
    extract_lets r
    have hr : Inner P s r.1 := htake fun p => ⟨hs p, hpart⟩
    split
    · exact (hr.trans (ackFrame_inner (hr.on fun _ => (takesPart_holdsTable hpart).1))).toKeeps
    · exact hr.toKeeps
  · split
    · exact hhear fun _ => ‹_›
    · exact (Inner.refl s).toKeeps

theorem acceptFrame_keeps (kind : FrameKind) (o : FaultOrder) {take hear : Station → List Byte → State → State × Bool}
    (hs : P → s.blocksFollow) (htake : ∀ n payload s, (P → s.inPart) → Inner P s (take n payload s).1)
    (hhear : ∀ n payload s, (P → s.ctl.state = .listen) → Keeps P s (hear n payload s).1) :
    Keeps P s (acceptFrame kind o take hear s) := by
  unfold acceptFrame
  split
  · rename_i f hf _
    have hon : P → s.ctl.state ≠ .off := fun p => on_of_finding (hs p) hf
    have hat := atAcceptance_inner hon
    split
    · split
      · exact hat.toKeeps.trans (enterFault_keeps (by simp) _ o hon)
      · split
        · rename_i sender _
          exact (hat.toKeeps.trans (handOn_keeps (hat.sound hs) (htake _ _ _) (hhear _ _ _))).trans inner_latch.toKeeps
        · exact (hat.trans inner_latch).toKeeps
    · exact (Inner.refl s).toKeeps
  · exact (Inner.refl s).toKeeps

theorem acceptUnknown_keeps (o : FaultOrder) (hs : P → s.blocksFollow) : Keeps P s (acceptUnknown o s) := by
  unfold acceptUnknown
  split
  · rename_i f hf _
    have hon : P → s.ctl.state ≠ .off := fun p => on_of_finding (hs p) hf
    have hat := atAcceptance_inner hon
    split
    · split
      · exact hat.toKeeps.trans (enterFault_keeps (by simp) _ o hon)
      · exact (hat.trans inner_latch).toKeeps
    · exact (Inner.refl s).toKeeps
  · exact (Inner.refl s).toKeeps

theorem takeNothing_keeps (n : Station) (payload : List Byte) (s : State) : Keeps P s (takeNothing n payload s).1 :=
  (Inner.refl s).toKeeps

theorem syncAccepted_keeps (o : FaultOrder) (hs : P → s.blocksFollow) : Keeps P s (syncAccepted o s) := by
  refine acceptFrame_keeps .sync o hs (fun n payload s h => ?_) fun n payload s h => ?_
  · unfold takeSync
    split
    · exact syncReceived_inner n _ _ h
    · exact .refl s
  · unfold hearSync
    split
    · exact syncHeard_keeps n _ _ h
    · exact (Inner.refl s).toKeeps

theorem leaveAccepted_keeps (o : FaultOrder) (hs : P → s.blocksFollow) : Keeps P s (leaveAccepted o s) :=
  acceptFrame_keeps .leave o hs (fun n _ _ h => leaveReceived_inner n h) fun n payload s _ => takeNothing_keeps n payload s

theorem proposeAccepted_keeps (o : FaultOrder) (hs : P → s.blocksFollow) : Keeps P s (proposeAccepted o s) :=
  acceptFrame_keeps .propose o hs (fun n payload _ h => memberPropose_inner n payload fun p => takesPart_holdsTable (h p).2)
    fun n payload s _ => takeNothing_keeps n payload s

theorem commitAccepted_keeps (o : FaultOrder) (hs : P → s.blocksFollow) : Keeps P s (commitAccepted o s) :=
  acceptFrame_keeps .commit o hs (fun n payload s h => memberCommit_inner s.own n payload fun p => takesPart_holdsTable (h p).2)
    fun n payload s _ => takeNothing_keeps n payload s

theorem cancelAccepted_keeps (o : FaultOrder) (hs : P → s.blocksFollow) : Keeps P s (cancelAccepted o s) :=
  acceptFrame_keeps .cancel o hs (fun n payload s _ => memberCancel_inner n payload s) fun n payload s _ => takeNothing_keeps n payload s

theorem markAccepted_keeps (o : FaultOrder) (hs : P → s.blocksFollow) : Keeps P s (markAccepted o s) :=
  acceptFrame_keeps .mark o hs (fun n payload _ h => memberMark_inner n payload (inPart_on h))
    fun n payload s _ => takeNothing_keeps n payload s

/-! ### The line in one period -/

theorem drives_enabled (h : s.drives = true) : s.driverEnabled = true := by
  simp only [State.drives, State.cellDrive, State.ownStartDue, Bool.or_eq_true, Bool.and_eq_true] at h
  rcases h with h | h
  · exact h.1.1
  · exact h.1.1.1

theorem count_bounded {p : Nat} {l : Line} (h : l.bounded p) : (l.count p).bounded p := by
  obtain ⟨h1, h2, hrest⟩ := h
  unfold Line.count
  split
  · exact ⟨Nat.min_le_left .., Nat.zero_le _, hrest⟩
  · exact ⟨Nat.zero_le _, Nat.min_le_left .., hrest⟩

theorem count_phase (p : Nat) (l : Line) : (l.count p).phase = l.phase := by
  unfold Line.count; split <;> rfl

theorem count_driver (p : Nat) (l : Line) : (l.count p).driver = l.driver := by
  unfold Line.count; split <;> rfl

theorem inner_finding {finding : Option Finding} (h : P → s.ctl.state ≠ .off) : Inner P s { s with line.finding := finding } :=
  inner_line .inl id h id

/-- Where no bit is awaited any more, the counts stay in their ranges. -/
theorem inner_noBit {pattern : Option (BitVec 10)} {finding : Option Finding} (h : P → s.ctl.state ≠ .off) :
    Inner P s { s with line.bitPos := none, line.pattern := pattern, line.finding := finding } :=
  inner_line .inl (fun ⟨h1, h2, h3, h4, _⟩ => ⟨h1, h2, h3, h4, fun _ hi => by cases hi⟩) h id

theorem toGap_inner (pattern : Option (BitVec 10)) (finding : Option Finding) (h : P → s.ctl.state ≠ .off) :
    Inner P s { s with line := s.line.toGap pattern finding } :=
  inner_line .inl (fun ⟨h1, h2, _, h4, _⟩ => ⟨h1, h2, Nat.zero_le _, h4, fun _ hi => by cases hi⟩) h fun _ => by simp [Line.toGap]

theorem replaceFrame_inner {f g : Frame} (hf : s.engine.frame = some f) : Inner P s { s with engine.frame := some g } :=
  inner_frame fun _ => .inr fun h => by simp [h] at hf

theorem deliverCell_inner (h : P → s.ctl.state ≠ .off) : Inner P s (deliverCell s) := by
  unfold deliverCell
  extract_lets b
  split
  · exact inner_line .inl settled_bounded h fun _ => settled_phase _
  · rename_i f hf
    extract_lets k g found t _ t'
    have ht : Inner P s t := by
      unfold t; split
      · exact inner_latch
      · exact .refl s
    have htf : t.engine.frame = some f := by
      unfold t; split <;> exact hf
    have ht' : Inner P s t' := ht.trans (replaceFrame_inner htf)
    split
    · exact ht'.trans (inner_noBit (ht'.on h))
    · exact ht'.trans (toGap_inner _ _ (ht'.on h))

theorem readBack_inner (pos : Nat) (h : P → s.ctl.state ≠ .off) : Inner P s (readBack pos s) := by
  unfold readBack
  split
  · rename_i f p hf _
    split
    · extract_lets driven k
      split
      · extract_lets n t _
        have ht : Inner P s t := inner_finding h
        split
        · exact ht.trans (replaceFrame_inner hf)
        · exact ht
      · split
        · exact inner_finding h
        · exact .refl s
    · exact .refl s
  · exact .refl s

/-- A bit taken moves the bit position on by one, and a data bit joins the bits taken. -/
theorem sampleBit_inner {i : Nat} (hi : s.line.bitPos = some i) (h : P → s.ctl.state ≠ .off) : Inner P s (sampleBit i s) := by
  unfold sampleBit
  split
  · rename_i h0
    split
    · refine inner_line .inl (fun ⟨h1, h2, h3, h4, h5⟩ => ⟨h1, h2, h3, h4, fun j hj => ?_⟩) h id
      obtain ⟨hcell, _, hlen⟩ := h5 i hi
      cases hj
      exact ⟨hcell, by omega, by rw [hlen, h0]⟩
    · exact inner_noBit (pattern := s.line.pattern) h
  · split
    · have hbit : Inner P s
          { s with
            line.shift := s.line.shift ++ [s.line.reading == .recessive]
            line.bitPos := some (i + 1) } := by
        refine inner_line .inl (fun ⟨h1, h2, h3, _, h5⟩ => ?_) h id
        obtain ⟨hcell, _, hlen⟩ := h5 i hi
        refine ⟨h1, h2, h3, by simp; omega, fun j hj => ?_⟩
        cases hj
        exact ⟨hcell, by omega, by simp; omega⟩
      exact hbit.trans (readBack_inner _ h)
    · split
      · exact deliverCell_inner h
      · exact inner_noBit (pattern := s.line.pattern) h

theorem readCell_inner (h : P → s.ctl.state ≠ .off) : Inner P s (readCell s) := by
  unfold readCell
  split
  · rename_i hi
    split
    · exact sampleBit_inner hi h
    · exact .refl s
  · exact .refl s

theorem fillRefTime_inner (h : P → s.ctl.state ≠ .off) : Inner P s (fillRefTime s) := by
  unfold fillRefTime
  split
  · rename_i f hf
    split
    · rename_i need out _
      split
      · exact (replaceFrame_inner hf).trans (inner_pattern (finding := s.line.finding) h)
      · exact .refl s
    · exact .refl s
  · exact .refl s

theorem readGap_inner (started : Bool) (h : P → s.ctl.state ≠ .off) : Inner P s (readGap started s) := by
  unfold readGap
  split
  · have hcell := beginCell_inner h
    exact hcell.trans (fillRefTime_inner (hcell.on h))
  · split
    · exact inner_line .inl (fun ⟨h1, h2, _, hrest⟩ => ⟨h1, h2, Nat.min_le_left .., hrest⟩) h id
    · exact .refl s

theorem readHunt_inner (before : Level) (h : P → s.ctl.state ≠ .off) : Inner P s (readHunt before s) := by
  unfold readHunt
  split
  · exact inner_finding h
  · exact .refl s

theorem readLine_inner (hs : P → s.blocksFollow) : Inner P s (readLine s) := by
  unfold readLine
  split
  · exact .refl s
  · rename_i hphase
    extract_lets started before _ t u
    have h : P → s.ctl.state ≠ .off := fun p => on_of_phase (hs p) hphase
    have hfind : Inner P s { s with line.finding := none } := inner_finding h
    have ht : Inner P s t := hfind.trans (inner_line (fun hd => .inr (drives_enabled hd)) id h id)
    have hu : Inner P s u := ht.trans
      (inner_line (fun hd => .inl (by rwa [count_driver] at hd)) count_bounded h fun hi => by rwa [count_phase])
    refine hu.trans ?_
    split
    · exact readHunt_inner before h
    · exact readGap_inner started h
    · exact readCell_inner h
    · exact .refl u
    · exact .refl u

end Sys2Proof.Machine
end

section
/-! PROOFS. The Host Port and the REFCLK boundary, and with them every row: the invariants that each step keeps. -/

namespace Sys2Proof.Machine

variable {P : Prop} {s : State}

/-! ### The commands of the host -/

theorem reply_inner (status : Status) (data : List Byte) (s : State) : Inner P s (reply status data s) := inner_port fun _ => id

theorem clearEnded_inner (s : State) : Inner P s (clearEnded s) := inner_port fun _ => id

theorem badCommand_inner (s : State) : Inner P s (badCommand s) := by
  unfold badCommand
  split
  · split
    · exact .refl s
    · exact (clearEnded_inner s).trans (reply_inner ..)
  · exact .refl s

theorem takeCommand_keeps (code : Byte) (n : Nat) {owner : List Byte → State → State} (hs : P → s.blocksFollow)
    (howner : ∀ args s, (P → s.blocksFollow) → Keeps P s (owner args s)) : Keeps P s (takeCommand code n owner s) := by
  have hclear := clearEnded_inner (P := P) s
  rcases takeCommand_cases code n owner s with ⟨args, he⟩ | he | he <;> rw [he]
  · exact hclear.toKeeps.trans (howner args _ (hclear.sound hs))
  · exact (hclear.trans (reply_inner ..)).toKeeps
  · exact (Inner.refl s).toKeeps

theorem ownConfigure_inner (a : List Byte) (s : State) : Inner P s (ownConfigure a s) := by
  unfold ownConfigure
  split
  · split
    · split
      · have hstore {c : ConfigRecord} : Inner P s { s with port.store := c } := inner_port fun _ => id
        exact hstore.trans (reply_inner ..)
      · exact reply_inner ..
    · exact reply_inner ..
  · exact reply_inner ..

theorem ownStart_keeps (a : List Byte) (s : State) : Keeps P s (ownStart a s) := by
  unfold ownStart
  split
  · exact (reply_inner ..).toKeeps
  · split
    · exact (reply_inner ..).toKeeps
    · exact (startStation_keeps _ s).trans (reply_inner ..).toKeeps

theorem ownStop_keeps (a : List Byte) (s : State) : Keeps P s (ownStop a s) := by
  unfold ownStop
  split
  · exact (reply_inner ..).toKeeps
  · exact (goOff_keeps .hostStop s).trans (reply_inner ..).toKeeps

theorem ownLeave_keeps (a : List Byte) (s : State) : Keeps P s (ownLeave a s) := by
  unfold ownLeave
  split
  · rename_i hpart
    exact (enterLeaving_keeps fun _ => hpart).trans (reply_inner ..).toKeeps
  · exact (reply_inner ..).toKeeps

theorem ownReadPeer_inner (a : List Byte) (s : State) : Inner P s (ownReadPeer a s) := by
  unfold ownReadPeer
  split <;> exact reply_inner ..

theorem ownReadAction_inner (a : List Byte) (s : State) : Inner P s (ownReadAction a s) := by
  unfold ownReadAction
  split
  · split <;> exact reply_inner ..
  · exact reply_inner ..

theorem drawSeq_inner (s : State) : Inner P s (drawSeq s) := inner_ctl

theorem ownSchedule_inner (a : List Byte) (s : State) : Inner P s (ownSchedule a s) := by
  unfold ownSchedule
  split
  · exact reply_inner ..
  · rename_i hst
    have htable : P → s.ctl.state.holdsTable := fun _ => not_or.1 hst
    split
    · exact reply_inner ..
    · split
      · exact reply_inner ..
      · split
        · exact reply_inner ..
        · split
          · exact reply_inner ..
          · exact (drawSeq_inner s).trans ((putEntry_inner _ ((drawSeq_inner s).holdsTable htable)).trans (reply_inner ..))

theorem ownPropose_inner (a : List Byte) (s : State) : Inner P s (ownPropose a s) := by
  unfold ownPropose
  split
  · exact reply_inner ..
  · rename_i hst
    have htable : P → s.ctl.state.holdsTable := fun _ => by rw [not_not.1 hst]; exact ⟨by simp, by simp⟩
    split
    · exact reply_inner ..
    · split
      · exact reply_inner ..
      · split
        · exact reply_inner ..
        · exact (drawSeq_inner s).trans ((raiseFor_put_inner _ _ _ ((drawSeq_inner s).holdsTable htable)).trans (reply_inner ..))

theorem cancelTaken_inner (e : Entry) (h : P → s.ctl.state.holdsTable) : Inner P s (cancelTaken e s) := by
  have huncommitted : Inner P s (cancelUncommitted e s) := raiseFor_put_inner _ _ _ h
  have harmed : Inner P s (cancelArmed e s) := by
    unfold cancelArmed
    extract_lets t
    have ht : Inner P s t := by
      unfold t; split
      · exact endFollowUp_inner e h
      · exact .refl s
    exact ht.trans (raiseFor_put_inner _ _ _ (ht.holdsTable h))
  unfold cancelTaken
  split
  · exact (removeEntry_inner ..).trans (queueReport_inner ..)
  · split
    · exact huncommitted
    · exact huncommitted
    · exact harmed
    · exact .refl s
    · exact .refl s

theorem ownCancel_inner (a : List Byte) (hs : P → s.blocksFollow) : Inner P s (ownCancel a s) := by
  unfold ownCancel
  split
  · exact reply_inner ..
  · split
    · exact reply_inner ..
    · split
      · exact reply_inner ..
      · rename_i e he
        split
        · exact reply_inner ..
        · split
          · exact reply_inner ..
          · exact (cancelTaken_inner e fun p => holdsTable_of_mem (hs p) (entry?_mem he)).trans (reply_inner ..)

theorem ownTakeReport_inner (a : List Byte) (s : State) : Inner P s (ownTakeReport a s) := by
  unfold ownTakeReport
  split
  · rename_i r rest hq
    have htail : Inner P s { s with reports.records := rest } :=
      inner_reports (fun h => by simp [hq] at h; omega) fun h x hx => h x (hq ▸ List.mem_cons_of_mem r hx)
    exact htail.trans (reply_inner ..)
  · exact reply_inner ..

theorem ownTakeCapture_inner (a : List Byte) (s : State) : Inner P s (ownTakeCapture a s) := by
  unfold ownTakeCapture
  split
  · rename_i r rest hq
    have htail : Inner P s { s with capture.records := rest } :=
      inner_capture (fun hlen hloss => ⟨by simp [hq] at hlen; simp; omega, fun x hx => hloss x (hq ▸ List.mem_cons_of_mem r hx)⟩)
        id (fun _ => .inr fun h => by simp [h] at hq) fun _ => .inr id
    exact htail.trans (reply_inner ..)
  · exact reply_inner ..

theorem commandNop_keeps (hs : P → s.blocksFollow) : Keeps P s (commandNop s) :=
  takeCommand_keeps _ _ hs fun _ s _ => (Inner.refl s).toKeeps

theorem commandConfigure_keeps (hs : P → s.blocksFollow) : Keeps P s (commandConfigure s) :=
  takeCommand_keeps _ _ hs fun a s _ => (ownConfigure_inner a s).toKeeps

theorem commandStart_keeps (hs : P → s.blocksFollow) : Keeps P s (commandStart s) :=
  takeCommand_keeps _ _ hs fun a s _ => ownStart_keeps a s

theorem commandStop_keeps (hs : P → s.blocksFollow) : Keeps P s (commandStop s) :=
  takeCommand_keeps _ _ hs fun a s _ => ownStop_keeps a s

theorem commandLeave_keeps (hs : P → s.blocksFollow) : Keeps P s (commandLeave s) :=
  takeCommand_keeps _ _ hs fun a s _ => ownLeave_keeps a s

theorem commandReadTime_keeps (hs : P → s.blocksFollow) : Keeps P s (commandReadTime s) :=
  takeCommand_keeps _ _ hs fun _ s _ => (reply_inner _ _ s).toKeeps

theorem commandReadStatus_keeps (hs : P → s.blocksFollow) : Keeps P s (commandReadStatus s) :=
  takeCommand_keeps _ _ hs fun _ s _ => (reply_inner _ _ s).toKeeps

theorem commandReadPeer_keeps (hs : P → s.blocksFollow) : Keeps P s (commandReadPeer s) :=
  takeCommand_keeps _ _ hs fun a s _ => (ownReadPeer_inner a s).toKeeps

theorem commandReadAction_keeps (hs : P → s.blocksFollow) : Keeps P s (commandReadAction s) :=
  takeCommand_keeps _ _ hs fun a s _ => (ownReadAction_inner a s).toKeeps

theorem commandPropose_keeps (hs : P → s.blocksFollow) : Keeps P s (commandPropose s) :=
  takeCommand_keeps _ _ hs fun a s _ => (ownPropose_inner a s).toKeeps

theorem commandSchedule_keeps (hs : P → s.blocksFollow) : Keeps P s (commandSchedule s) :=
  takeCommand_keeps _ _ hs fun a s _ => (ownSchedule_inner a s).toKeeps

theorem commandCancel_keeps (hs : P → s.blocksFollow) : Keeps P s (commandCancel s) :=
  takeCommand_keeps _ _ hs fun a _ hs => (ownCancel_inner a hs).toKeeps

theorem commandTakeReport_keeps (hs : P → s.blocksFollow) : Keeps P s (commandTakeReport s) :=
  takeCommand_keeps _ _ hs fun a s _ => (ownTakeReport_inner a s).toKeeps

theorem commandTakeCapture_keeps (hs : P → s.blocksFollow) : Keeps P s (commandTakeCapture s) :=
  takeCommand_keeps _ _ hs fun a s _ => (ownTakeCapture_inner a s).toKeeps

/-- Each outcome of a judgement keeps the five. -/
theorem hostCommands_keep : ∀ f ∈ hostCommands, ∀ s : State, (P → s.blocksFollow) → Keeps P s (f s) := by
  simp only [hostCommands, List.forall_mem_cons]
  exact ⟨fun s _ => (badCommand_inner s).toKeeps,
    fun _ => commandNop_keeps, fun _ => commandConfigure_keeps, fun _ => commandStart_keeps,
    fun _ => commandStop_keeps, fun _ => commandLeave_keeps, fun _ => commandReadTime_keeps,
    fun _ => commandReadStatus_keeps, fun _ => commandReadPeer_keeps, fun _ => commandReadAction_keeps,
    fun _ => commandPropose_keeps, fun _ => commandSchedule_keeps, fun _ => commandCancel_keeps,
    fun _ => commandTakeReport_keeps, fun _ => commandTakeCapture_keeps,
    List.forall_mem_nil _⟩

/-- Commands that keep the five, one behind the other. -/
theorem foldl_keeps {fs : List (State → State)} (hf : ∀ f ∈ fs, ∀ s : State, (P → s.blocksFollow) → Keeps P s (f s)) (s : State)
    (hs : P → s.blocksFollow) : Keeps P s (fs.foldl (fun s f => f s) s) := by
  induction fs generalizing s with
  | nil => exact (Inner.refl s).toKeeps
  | cons f fs ih =>
    have hfirst := hf f List.mem_cons_self s hs
    exact hfirst.trans (ih (fun g hg => hf g (List.mem_cons_of_mem f hg)) _ (hfirst.sound hs))

theorem takeTransaction_keeps (hs : P → s.blocksFollow) : Keeps P s (takeTransaction s) := foldl_keeps hostCommands_keep s hs

/-! ### The boundary -/

theorem settleFinding_keeps (hs : P → s.blocksFollow) : Keeps P s (settleFinding s) := by
  unfold settleFinding
  split
  · exact (Inner.refl s).toKeeps
  · exact (frameStart_inner hs).toKeeps
  · exact falseStart_keeps _ hs
  · exact (arbitrationLost_inner hs).toKeeps
  · exact collision_keeps _ hs
  · exact driverFailure_keeps _ hs
  · exact stopError_keeps _ hs
  · exact gapExpiry_keeps _ hs
  · exact (checkComplete_inner hs).toKeeps
  · exact frameCompleted_keeps hs
  · exact (receivedFrameEnd_inner hs).toKeeps
  · exact (lengthAbove24_inner hs).toKeeps
  · split
    · exact syncAccepted_keeps _ hs
    · exact leaveAccepted_keeps _ hs
    · exact proposeAccepted_keeps _ hs
    · exact commitAccepted_keeps _ hs
    · exact cancelAccepted_keeps _ hs
    · exact markAccepted_keeps _ hs
    · exact acceptUnknown_keeps _ hs

theorem settleDeadlines_inner (hs : P → s.blocksFollow) : Inner P s (settleDeadlines s) := by
  have hsound {s t : State} (h : Inner P s t) : (P → s.blocksFollow) → P → t.blocksFollow := h.sound
  have hd := Inner.foldl (G := State.blocksFollow) hsound (fun _ id h => deadlineEvent_inner id h) (s.table.entries.map Entry.id) s hs
  exact hd.trans (Inner.foldl (G := State.blocksFollow) hsound (fun _ id h => followUpDeadline_inner id h) _ _ (hd.sound hs))

theorem settleFirings_inner (n : Nat) (hs : P → s.blocksFollow) : Inner P s (settleFirings n s) := by
  induction n generalizing s with
  | zero => exact .refl s
  | succ n ih =>
    have hfirst := actionDue_inner hs
    exact hfirst.trans (ih (hfirst.sound hs))

theorem settleActions_inner (hs : P → s.blocksFollow) : Inner P s (settleActions s) := by
  have hpulses : Inner P s (allChannels.foldl (fun s c => pulseEnd c s) s) :=
    Inner.foldl_free (fun s c => pulseEnd_inner c s) allChannels s
  exact hpulses.trans (settleFirings_inner _ (hpulses.sound hs))

theorem settleCaptures_inner (s : State) : Inner P s (settleCaptures s) :=
  (captureEdge_inner s).trans ((captureEdge_inner _).trans ((captureEdge_inner _).trans (captureEdge_inner _)))

theorem settleLine_keeps (hs : P → s.blocksFollow) : Keeps P s (settleLine s) :=
  have hstuck := lineStuck_keeps .stateFirst hs
  hstuck.trans (lineQuiet_inner (hstuck.sound hs)).toKeeps

theorem settleRounds_keeps (hs : P → s.blocksFollow) : Keeps P s (settleRounds s) :=
  have hstart := (listenTimeout_keeps s).trans (roundStart_inner _).toKeeps
  hstart.trans (roundClose_inner _ (hstart.sound hs)).toKeeps

/-- The events of a period that are still outstanding at its end, one behind the other. -/
theorem settle_keeps (hs : P → s.blocksFollow) : Keeps P s (settle s) := by
  have h1 := (stepNotice_inner true hs).toKeeps
  have h2 := h1.trans (settleFinding_keeps (h1.sound hs))
  have h3 := h2.trans (settleLine_keeps (h2.sound hs))
  have h4 := h3.trans (settleRounds_keeps (h3.sound hs))
  have h5 := h4.trans (settleDeadlines_inner (h4.sound hs)).toKeeps
  have h6 := h5.trans (settleActions_inner (h5.sound hs)).toKeeps
  have h7 := h6.trans (settleCaptures_inner _).toKeeps
  have h8 := h7.trans (takeTransaction_keeps (h7.sound hs))
  exact h8.trans (access_inner _).toKeeps

theorem inner_period {n : Nat} {pins : Pins} : Inner P s { s with period := n, pins := pins } :=
  ⟨⟨id, id, id, id, fun _ => id⟩, fun _ => .inl rfl⟩

theorem inner_irq {irq : Bool} (h : s.resetLow = true → irq = false) : Inner P s { s with reports.irq := irq } where
  queues := id
  pins := fun ⟨h1, h2⟩ => ⟨h1, fun hlow => ⟨(h2 hlow).1, h hlow, (h2 hlow).2.2⟩⟩
  counts := id
  needs := id
  blocks _ := id
  state _ := .inl rfl

theorem boundary_inner (s : State) : Inner P s (boundary s) := by
  have hperiod : Inner P s { s with period := s.period + 1 } := inner_period
  have hbase := hperiod.trans (inner_base (b := s.base.advance) rfl)
  have htable := hbase.trans (inner_table
    (tb := { s.table with trigPins := s.table.levels, firedNow := [], firedOutputs := [], expiring := [], proposedNow := [] }) rfl)
  exact htable.trans (inner_irq fun hlow => by simp [show s.resetLow = true from hlow])

theorem readCapture_queues (c : ConfigRecord) (cap : BitVec 4) (is : List Channel) (u : CaptureUnit) :
    (is.foldl (readCapture c cap) u).records = u.records ∧ (is.foldl (readCapture c cap) u).marks = u.marks := by
  induction is generalizing u with
  | nil => exact ⟨rfl, rfl⟩
  | cons i is ih => exact ih _

theorem readCaptures_inner (s : State) : Inner P s (readCaptures s) := by
  unfold readCaptures
  split
  · exact .refl s
  · obtain ⟨hrecords, hmarks⟩ := readCapture_queues s.cfg s.pins.cap allChannels s.capture
    exact inner_capture (fun h1 h2 => by rw [hrecords]; exact ⟨h1, h2⟩) (fun h => by rwa [hmarks])
      (fun _ => .inr fun h => by rwa [hrecords]) fun _ => .inr fun h => by rwa [hmarks]

theorem readPort_inner (s : State) : Inner P s (readPort s) := by
  unfold readPort
  split
  · exact inner_port fun _ => id
  · rename_i hlow
    exact inner_port fun h => absurd h hlow

theorem commonTimeAdvance_keeps (pins : Pins) (hs : P → s.blocksFollow) : Keeps P s (commonTimeAdvance pins s) := by
  have hsettle := settle_keeps hs
  have hinputs : Inner P (settle s) (readPort (readCaptures { boundary (settle s) with pins })) :=
    (boundary_inner _).trans (inner_period.trans ((readCaptures_inner _).trans (readPort_inner _)))
  have hall := hsettle.trans hinputs.toKeeps
  exact hall.trans (readLine_inner (hall.sound hs)).toKeeps

/-! ### Every row -/

/-- Every row answers a next state that keeps the five. -/
theorem exec_keeps (i : Instr) (hs : P → s.blocksFollow) : ∃ t, exec i s = .next t ∧ Keeps P s t := by
  cases i with
  | powerOnReset pins => exact ⟨_, exec_powerOnReset pins s, powerOn_keeps pins s⟩
  | resetN pins => exact ⟨_, exec_resetN pins s, releaseReset_keeps pins s⟩
  | badCommand => exact ⟨_, exec_badCommand s, (badCommand_inner s).toKeeps⟩
  | nop => exact ⟨_, exec_nop s, commandNop_keeps hs⟩
  | configure => exact ⟨_, exec_configure s, commandConfigure_keeps hs⟩
  | start => exact ⟨_, exec_start s, commandStart_keeps hs⟩
  | stop => exact ⟨_, exec_stop s, commandStop_keeps hs⟩
  | leave => exact ⟨_, exec_leave s, commandLeave_keeps hs⟩
  | readTime => exact ⟨_, exec_readTime s, commandReadTime_keeps hs⟩
  | readStatus => exact ⟨_, exec_readStatus s, commandReadStatus_keeps hs⟩
  | readPeer => exact ⟨_, exec_readPeer s, commandReadPeer_keeps hs⟩
  | readAction => exact ⟨_, exec_readAction s, commandReadAction_keeps hs⟩
  | propose => exact ⟨_, exec_propose s, commandPropose_keeps hs⟩
  | schedule => exact ⟨_, exec_schedule s, commandSchedule_keeps hs⟩
  | cancel => exact ⟨_, exec_cancel s, commandCancel_keeps hs⟩
  | takeReport => exact ⟨_, exec_takeReport s, commandTakeReport_keeps hs⟩
  | takeCapture => exact ⟨_, exec_takeCapture s, commandTakeCapture_keeps hs⟩
  | lineQuiet => exact ⟨_, exec_lineQuiet s, (lineQuiet_inner hs).toKeeps⟩
  | lineStuck o => exact ⟨_, exec_lineStuck o s, lineStuck_keeps o hs⟩
  | access => exact ⟨_, exec_access s, (access_inner s).toKeeps⟩
  | frameStart => exact ⟨_, exec_frameStart s, (frameStart_inner hs).toKeeps⟩
  | falseStart o => exact ⟨_, exec_falseStart o s, falseStart_keeps o hs⟩
  | stopError o => exact ⟨_, exec_stopError o s, stopError_keeps o hs⟩
  | gapExpiry o => exact ⟨_, exec_gapExpiry o s, gapExpiry_keeps o hs⟩
  | arbitrationLost => exact ⟨_, exec_arbitrationLost s, (arbitrationLost_inner hs).toKeeps⟩
  | collision o => exact ⟨_, exec_collision o s, collision_keeps o hs⟩
  | driverFailure o => exact ⟨_, exec_driverFailure o s, driverFailure_keeps o hs⟩
  | checkComplete => exact ⟨_, exec_checkComplete s, (checkComplete_inner hs).toKeeps⟩
  | frameCompleted => exact ⟨_, exec_frameCompleted s, frameCompleted_keeps hs⟩
  | syncAccepted o => exact ⟨_, exec_syncAccepted o s, syncAccepted_keeps o hs⟩
  | leaveAccepted o => exact ⟨_, exec_leaveAccepted o s, leaveAccepted_keeps o hs⟩
  | proposeAccepted o => exact ⟨_, exec_proposeAccepted o s, proposeAccepted_keeps o hs⟩
  | commitAccepted o => exact ⟨_, exec_commitAccepted o s, commitAccepted_keeps o hs⟩
  | cancelAccepted o => exact ⟨_, exec_cancelAccepted o s, cancelAccepted_keeps o hs⟩
  | markAccepted o => exact ⟨_, exec_markAccepted o s, markAccepted_keeps o hs⟩
  | listenTimeout => exact ⟨_, exec_listenTimeout s, listenTimeout_keeps s⟩
  | roundStart => exact ⟨_, exec_roundStart s, (roundStart_inner s).toKeeps⟩
  | roundClose o => exact ⟨_, exec_roundClose o s, (roundClose_inner o hs).toKeeps⟩
  | stepNotice first => exact ⟨_, exec_stepNotice first s, (stepNotice_inner first hs).toKeeps⟩
  | actionDue => exact ⟨_, exec_actionDue s, (actionDue_inner hs).toKeeps⟩
  | pulseEnd c => exact ⟨_, exec_pulseEnd c s, (pulseEnd_inner c s).toKeeps⟩
  | deadlineEvent id => exact ⟨_, exec_deadlineEvent id s, (deadlineEvent_inner id hs).toKeeps⟩
  | followUpDeadline id => exact ⟨_, exec_followUpDeadline id s, (followUpDeadline_inner id hs).toKeeps⟩
  | captureEdge => exact ⟨_, exec_captureEdge s, (captureEdge_inner s).toKeeps⟩
  | commonTimeAdvance pins => exact ⟨_, exec_commonTimeAdvance pins s, commonTimeAdvance_keeps pins hs⟩
  | resetNAsserted => exact ⟨_, exec_resetNAsserted s, assertReset_keeps s⟩
  | receivedFrameEnd => exact ⟨_, exec_receivedFrameEnd s, (receivedFrameEnd_inner hs).toKeeps⟩
  | lengthAbove24 => exact ⟨_, exec_lengthAbove24 s, (lengthAbove24_inner hs).toKeeps⟩

/-- Every step keeps the bounds, the pins, the counts and the needs, and from blocks that follow the station state such blocks. -/
theorem step_keeps {t : State} (h : step s = .next t) : Keeps s.blocksFollow s t := by
  unfold step at h
  split at h
  · cases h
    exact (Inner.refl s).toKeeps
  · rename_i i rest _
    have hrest : Inner s.blocksFollow s { s with pending := rest } := ⟨⟨id, id, id, id, fun _ => id⟩, fun _ => .inl rfl⟩
    obtain ⟨u, hexec, hkeeps⟩ := exec_keeps i (hrest.sound id)
    cases hexec.symm.trans h
    exact hrest.toKeeps.trans hkeeps

/-- Settles O54: every row is made of changes that keep the queues, the pins and the counts (`exec_keeps`). -/
theorem stepKeepsBoundsAndPins : Obligations.StepKeepsBoundsAndPins := fun _ _ h =>
  ⟨(step_keeps h).queues, (step_keeps h).pins, (step_keeps h).counts⟩

/-- Settles O59: every row is made of changes that keep the need list, and the blocks as the station state leaves them (`exec_keeps`). -/
theorem stepKeepsNeedsAndBlocks : Obligations.StepKeepsNeedsAndBlocks := fun _ _ h =>
  ⟨(step_keeps h).needs, fun hb => (step_keeps h).blocks hb hb⟩

end Sys2Proof.Machine
end

section
/-! PROOFS. How a frame in flight ends without completing, and how the line returns to QUIET (O18 to O21). -/

namespace Sys2Proof.Machine

variable {s t : State} {o : FaultOrder} {f : Frame} {need : Need} {out : List Byte} {i : Instr}

/-! ### The rows that cut -/

/-- A cut of a frame behind its first cell is the cut by the line, whichever row takes it (R36, R37). -/
theorem exec_cut {cut : Finding × (FaultOrder → Instr)} (hf : s.engine.frame = some f) (hcells : f.cells ≠ []) (hcut : cut ∈ cuts)
    (hfind : s.line.finding = some cut.1) (o : FaultOrder) : exec (cut.2 o) s = .next (cutByLine o s) := by
  have hstart (driven : Bool) : startBitRecessive o driven s = cutByLine o s := by simp [startBitRecessive, hf, hcells]
  simp only [cuts, List.mem_cons, List.not_mem_nil, or_false] at hcut
  rcases hcut with rfl | rfl | rfl | rfl | rfl
  · simp [stopError, hfind]
  · simp [gapExpiry, hfind]
  · simp [falseStart, hfind, hstart]
  · simp [falseStart, hfind, hstart]
  · simp [driverFailure, hfind, hstart]

/-- A line that is due to be STUCK is so, with the driver released, and cuts a frame in flight (R7). -/
theorem exec_lineStuck_due (hphase : s.line.phase ≠ .idle) (hactive : s.line.condition = .active)
    (hcount : 24 * s.bitTime ≤ s.line.stuckCount) (o : FaultOrder) :
    exec (.lineStuck o) s =
      .next (cutByLine o { s with line.condition := .stuck, line.driver := false, line.pattern := none }) := by
  have hdue : s.stuckDue = true := by simp [State.stuckDue, hphase, hactive, hcount]
  simp only [exec_lineStuck, lineStuck, hdue, if_true]
  rfl

/-! ### The end of a received frame -/

/-- Settles O19: a cut of a received frame is its end and no more. -/
theorem receivedFramesEndWithoutOutcome : Obligations.ReceivedFramesEndWithoutOutcome := by
  refine ⟨fun s => rfl, fun s => ⟨fun hf => ?_, fun hf => ?_⟩, fun s o f hframe hrole hcells cut hcut hfind => ?_⟩
  · simp [receivedFrameEnd, hf]
  · simp [lengthAbove24, hf]
  · rw [exec_cut hframe hcells hcut hfind, cutByLine_receive hframe hrole]

/-! ### Failures of an own frame -/

/-- Every way of failing an own frame counts one failure of its need behind what the row itself does (R35 to R37). -/
theorem exec_ownFailure (hsends : s.sends need out f) (hfail : s.ownFailure o f i t) : exec i s = .next (failOwn o need t) := by
  obtain ⟨hframe, hrole⟩ := hsends
  rcases hfail with ⟨hcells, cut, hcut, hfind, rfl, rfl⟩ | ⟨hphase, hactive, hcount, rfl, rfl⟩ | ⟨hfind, rfl, rfl⟩
    | ⟨hfind, rfl, rfl⟩ | ⟨hcells, hfind, hi, rfl⟩
  · rw [exec_cut hframe hcells hcut hfind, cutByLine_transmit ⟨hframe, hrole⟩]
  · rw [exec_lineStuck_due hphase hactive hcount]
    refine congrArg Host.Outcome.next (cutByLine_transmit (out := out) (f := f) ?_ o)
    exact ⟨hframe, hrole⟩
  · simp only [exec_collision, collision, hfind, hframe, Option.map_some, hrole, giveUpSending]
    rfl
  · simp only [exec_driverFailure, driverFailure, hfind, deadBit, hframe, Option.map_some, hrole]
    rfl
  · have hstart : startBitRecessive o true s = failOwn o need (restoreQuiet { s with engine.frame := none, base.latch := none }) := by
      simp [startBitRecessive, hframe, hcells, hrole]
    simp only [List.mem_cons, List.not_mem_nil, or_false] at hi
    rcases hi with rfl | rfl
    · simp only [exec_falseStart, falseStart, hfind, hstart]
      rfl
    · simp only [exec_driverFailure, driverFailure, hfind, hstart]
      rfl

/-- A way of failing leaves the table, the controller, the needs and the run to what the failure itself does. -/
theorem ownFailure_frame (hfail : s.ownFailure o f i t) :
    t.table = s.table ∧ t.ctl = s.ctl ∧ t.engine.needs = s.engine.needs ∧ t.engine.run = s.engine.run := by
  rcases hfail with ⟨_, _, _, _, _, rfl⟩ | ⟨_, _, _, _, rfl⟩ | ⟨_, _, rfl⟩ | ⟨_, _, rfl⟩ | ⟨_, _, _, rfl⟩ <;>
    exact ⟨rfl, rfl, rfl, rfl⟩

/-- Whether a failure moves the source depends on the need and the table alone. -/
theorem failsQuietly_of_table (h : s.failsQuietly need) (ht : t.table = s.table) : t.failsQuietly need := by
  refine ⟨h.1, fun id e hid he => h.2 id e hid ?_⟩
  simpa only [State.entry?, ht] using he

/-- Below the limit, a failure of a need whose source stays as it is raises the run and nothing else. -/
theorem exec_quietFailure (hsends : s.sends need out f) (hfail : s.ownFailure o f i t) (hquiet : s.failsQuietly need)
    (hrun : s.engine.run < 15) : exec i s = .next { t with engine.run := s.engine.run + 1 } := by
  obtain ⟨htable, _, _, hruns⟩ := ownFailure_frame hfail
  rw [exec_ownFailure hsends hfail, failOwn_quiet (failsQuietly_of_table hquiet htable) (hruns ▸ hrun), hruns]

/-- Settles O20: a cut and a stuck line are ways of failing, and the failure moves the run alone. -/
theorem cutOfAnOwnFrameIsAFailure : Obligations.CutOfAnOwnFrameIsAFailure := by
  refine ⟨fun s o need out f hsends hcells hquiet hrun cut hcut hfind => ?_, fun s o hphase hactive hcount => ?_⟩
  · have hfail : s.ownFailure o f (cut.2 o) (endFrame s) := .inl ⟨hcells, cut, hcut, hfind, rfl, rfl⟩
    exact exec_quietFailure hsends hfail hquiet hrun
  · intro t
    refine ⟨fun hreceive => ?_, fun need out f hsends hquiet hrun => ?_⟩
    · rw [exec_lineStuck_due hphase hactive hcount]
      cases hframe : s.engine.frame with
      | none => simp [cutByLine, hframe, t]
      | some f =>
        refine congrArg Host.Outcome.next (cutByLine_receive (f := f) ?_ (hreceive f hframe) o)
        exact hframe
    · have hfail : s.ownFailure o f (.lineStuck o) (endFrame t) := .inr (.inl ⟨hphase, hactive, hcount, rfl, rfl⟩)
      exact exec_quietFailure hsends hfail hquiet hrun

/-! ### The limits -/

theorem faultAtLimit_below (h : s.engine.run < 16) (o : FaultOrder) : faultAtLimit o s = s := by
  rw [faultAtLimit, if_neg]
  omega

theorem faultAtLimit_reached (hrun : s.engine.run = 16) (hdrives : s.ctl.state.drives = true) (o : FaultOrder) :
    faultAtLimit o s = enterFault .line .line o s := by
  rw [faultAtLimit, if_pos ⟨hrun, hdrives⟩]

theorem drives_iff {st : StationState} :
    st.drives = true ↔ st ∈ [StationState.joining, .synced, .holdover, .leaving] := by
  cases st <;> simp [StationState.drives]

/-- The failed outcome of a need whose source stays as it is (R74, R132, R135, R145, R154). -/
theorem reportFailed_quiet (h : s.failsQuietly need) : reportFailed need s = s := by
  unfold reportFailed
  split
  · rfl
  · rfl
  · rename_i id hid
    unfold entryFailed
    split
    · rfl
    · rename_i e he
      have hlast := h.2 id e hid he
      split <;> simp [hlast]
  · rename_i hid
    exact absurd hid h.1

/-- A failure of the LEAVE frame of a leaving station (R103). -/
theorem reportFailed_leave (hsource : need.source = .controller) (hholds : s.holdsNeed need = true)
    (hleaving : s.ctl.state = .leaving) : reportFailed need s = leaveFailed s := by
  simp [reportFailed, hsource, hholds, hleaving]

/-- Settles O21: the failed LEAVE is counted before the run is held against its limit, and the fourth has left the station in OFF. -/
theorem failureLimitsEndTheStation : Obligations.FailureLimitsEndTheStation := by
  refine ⟨fun s o i need out f t hsends hfail hsource hholds hleaving => ?_,
    fun s o i need out f t hsends hfail hquiet hrun hdrives => ?_, fun s o f hframe hrole hrun hdrives hfind => ?_⟩
  · intro u
    obtain ⟨_, hctl, hneeds, hruns⟩ := ownFailure_frame hfail
    have hcount : countFailure t = u := by simp only [countFailure, hruns, u]
    have hu : u.ctl = s.ctl := hctl
    have hreport : reportFailed need u = leaveFailed u := by
      refine reportFailed_leave hsource ?_ (hu ▸ hleaving)
      rw [← hholds]
      exact congrArg (fun needs : List Need => needs.any fun n => n.age == need.age) hneeds
    rw [exec_ownFailure hsends hfail, failOwn, hcount, hreport, leaveFailed, hu]
    refine ⟨fun hbelow hrun => ?_, fun hbelow hrun => ?_, fun hfourth => ?_⟩
    · rw [if_neg (by omega)]
      refine congrArg Host.Outcome.next (faultAtLimit_below ?_ o)
      simp only [u]; omega
    · have hlimit : u.engine.run = 16 := by simp only [u]; omega
      rw [if_neg (by omega)]
      refine congrArg Host.Outcome.next (faultAtLimit_reached ?_ ?_ o)
      · exact hlimit
      · simp [hleaving, StationState.drives]
    · rw [if_pos (by omega), faultAtLimit, if_neg (by simp [goOff, StationState.drives])]
  · obtain ⟨htable, hctl, _, hruns⟩ := ownFailure_frame hfail
    have hcount : countFailure t = { t with engine.run := 16 } := by
      simp only [countFailure, hruns, Nat.min_eq_left (show 16 ≤ s.engine.run + 1 by omega)]
    have hquiet' : State.failsQuietly { t with engine.run := 16 } need := failsQuietly_of_table hquiet htable
    rw [exec_ownFailure hsends hfail, failOwn, hcount, reportFailed_quiet hquiet']
    refine congrArg Host.Outcome.next (faultAtLimit_reached ?_ ?_ o)
    · rfl
    · exact drives_iff.2 (hctl ▸ hdrives)
  · have hcount : countFailure (clearFinding (releaseOrder s)) =
        { s with engine.run := 16, line.pattern := none, line.finding := none } := by
      have hmin : min 16 (s.engine.run + 1) = 16 := by omega
      simp only [countFailure, clearFinding_engine, releaseOrder_engine, hmin]
      rfl
    simp only [exec_driverFailure, driverFailure, hfind, deadBit, hframe, Option.map_some, hrole, hcount]
    refine congrArg Host.Outcome.next (faultAtLimit_reached ?_ ?_ o)
    · rfl
    · exact drives_iff.2 hdrives

/-! ### The line is QUIET again -/

/-- Settles O18: a first cell's false start restores the QUIET line, and is one quiet failure more where the own pattern drove it. -/
theorem lineReturnsToQuiet : Obligations.LineReturnsToQuiet := by
  refine ⟨fun s hphase hquiet hcount => ?_, fun s o f driven hfind hframe hcells hrole => ?_,
    fun s o need out f hsends hcells hquiet hrun hfind i hi => ?_⟩
  · simp [lineQuiet, State.quietDue, hphase, hquiet, hcount]
  · have hstart : startBitRecessive o driven s = restoreQuiet { s with engine.frame := none, base.latch := none } := by
      simp only [startBitRecessive, hframe, hcells, if_true]
      cases hr : f.role with
      | receive => rfl
      | transmit need out =>
        have hdriven : ¬driven = true := fun hd => by simp [hrole hd] at hr
        exact if_neg hdriven
    simp only [exec_falseStart, falseStart, hfind, hstart]
    rfl
  · exact exec_quietFailure hsends (.inr (.inr (.inr (.inr ⟨hcells, hfind, hi, rfl⟩)))) hquiet hrun

end Sys2Proof.Machine
end

section
/-! PROOFS. The resets (O3), the rows that wait for their conditions (O17), and how a frame begins (O24). -/

namespace Sys2Proof.Machine

variable {s : State}

/-! ### The resets -/

theorem speedOf_eq (spd : BitVec 2) :
    speedOf spd = if spd = 0 then .a else if spd = 1 then .b else if spd = 2 then .c else .invalid := by
  revert spd; decide

/-- Settles O3: the straps are sampled by `speedOf_eq`, and every other value is the one written into `State.reset`. -/
theorem resetsGivePowerOnValues : Obligations.ResetsGivePowerOnValues := by
  refine ⟨fun p s => ?_, ?_, fun s => rfl⟩
  · intro t
    have hstraps : sampleStraps p = t.straps := congrArg (Straps.mk p.stn.toFin) (speedOf_eq p.spd)
    simp only [exec_powerOnReset, exec_resetN, releaseReset, powerOn, hstraps]
    exact ⟨rfl, rfl⟩
  · refine ⟨⟨rfl, rfl, rfl, rfl, rfl, rfl, rfl, rfl, rfl⟩, ⟨rfl, rfl, rfl⟩, ⟨rfl, rfl, rfl, rfl, rfl, rfl, rfl⟩, fun n => ?_, rfl, rfl,
      ⟨rfl, fun c => ?_⟩, ⟨rfl, rfl, fun c => ?_⟩, ⟨rfl, rfl⟩, rfl, rfl, rfl⟩
    · exact Vector.getElem_replicate ..
    · exact Vector.getElem_replicate ..
    · exact Vector.getElem_replicate ..

/-! ### Rows that wait -/

/-- An acceptance row waits for the acceptance instant of a received frame of its kind. -/
theorem acceptFrame_waits {kind : FrameKind} {o : FaultOrder} {take hear : Station → List Byte → State → State × Bool}
    (h : s.line.finding = some .acceptance → ∀ f, s.engine.frame = some f → f.role = .receive → f.kind? ≠ some kind) :
    acceptFrame kind o take hear s = s := by
  unfold acceptFrame
  split
  · rename_i f hfind hframe
    exact if_neg fun ⟨hrole, hkind⟩ => h hfind f hframe hrole hkind
  · rfl

/-- The acceptance rows are `acceptFrame` of their kind. -/
theorem exec_acceptanceRow {row : FrameKind × (FaultOrder → Instr)} (hrow : row ∈ acceptanceRows) (o : FaultOrder) (s : State) :
    ∃ take hear, exec (row.2 o) s = .next (acceptFrame row.1 o take hear s) := by
  simp only [acceptanceRows, List.mem_cons, List.not_mem_nil, or_false] at hrow
  rcases hrow with rfl | rfl | rfl | rfl | rfl | rfl
  · exact ⟨_, _, exec_syncAccepted o s⟩
  · exact ⟨_, _, exec_leaveAccepted o s⟩
  · exact ⟨_, _, exec_proposeAccepted o s⟩
  · exact ⟨_, _, exec_commitAccepted o s⟩
  · exact ⟨_, _, exec_cancelAccepted o s⟩
  · exact ⟨_, _, exec_markAccepted o s⟩

/-- Without its finding, a row of the line and the Frame Engine has nothing to take. -/
theorem exec_findingRow_waits {o : FaultOrder} {row : Instr × List Finding} (hrow : row ∈ findingRows o)
    (hfind : s.line.finding ∉ row.2.map some) : exec row.1 s = .next s := by
  simp only [findingRows, List.mem_cons, List.not_mem_nil, or_false] at hrow
  rcases hrow with rfl | rfl | rfl | rfl | rfl | rfl | rfl | rfl | rfl | rfl | rfl | rfl | rfl | rfl | rfl | rfl | rfl <;>
    simp only [List.map_cons, List.map_nil, List.mem_cons, List.not_mem_nil, or_false, not_or] at hfind
  · simp [frameStart, hfind]
  · have hwait : falseStart o s = s := by
      unfold falseStart
      split
      · rename_i driven hd
        cases driven
        · exact absurd hd hfind.2
        · exact absurd hd hfind.1
      · rfl
    rw [exec_falseStart, hwait]
  · simp [stopError, hfind]
  · simp [gapExpiry, hfind]
  · simp [arbitrationLost, hfind]
  · simp [collision, hfind]
  · simp [driverFailure, hfind]
  · simp [checkComplete, hfind]
  · simp [frameCompleted, hfind]
  · exact congrArg Host.Outcome.next (acceptFrame_waits fun h => absurd h hfind)
  · exact congrArg Host.Outcome.next (acceptFrame_waits fun h => absurd h hfind)
  · exact congrArg Host.Outcome.next (acceptFrame_waits fun h => absurd h hfind)
  · exact congrArg Host.Outcome.next (acceptFrame_waits fun h => absurd h hfind)
  · exact congrArg Host.Outcome.next (acceptFrame_waits fun h => absurd h hfind)
  · exact congrArg Host.Outcome.next (acceptFrame_waits fun h => absurd h hfind)
  · simp [receivedFrameEnd, hfind]
  · simp [lengthAbove24, hfind]

/-- Writing an output's own record back changes nothing. -/
theorem setOutput_self (c : Channel) (s : State) : setOutput c (s.output c) s = s := by
  simp [setOutput, State.output]

theorem endPulse_unreached {now : Time} {o : Output} (h : ∀ p, o.pulseEnd = some p → now < p) : o.endPulse now = o := by
  unfold Output.endPulse
  split
  · rename_i p hp
    exact if_neg (BitVec.not_le.2 (h p hp))
  · rfl

theorem pulseEnd_waits {c : Channel}
    (h : s.noticeDue ≠ none ∨ c ∈ s.table.firedOutputs ∨ ∀ p, (s.output c).pulseEnd = some p → s.now < p) : pulseEnd c s = s := by
  rcases pulseEnd_cases c s with he | ⟨hnotice, he⟩ <;> rw [he]
  have hsame : s.pulseEnded c = s.output c := by
    by_cases hfired : c ∈ s.table.firedOutputs
    · exact pulseEnded_fired hfired
    · rw [pulseEnded_unfired hfired]
      exact endPulse_unreached ((h.resolve_left (· hnotice)).resolve_left hfired)
  rw [hsame, setOutput_self]

theorem listenTimeout_waits
    (h : s.ctl.state ≠ .listen ∨ ∀ start, s.ctl.listenTimer = some start → (s.now - start).toNat < 3 * s.cfg.roundLength) :
    listenTimeout s = s := by
  refine if_neg fun hexp => ?_
  unfold State.listenExpired at hexp
  split at hexp
  · rename_i start hstart
    simp only [Bool.and_eq_true, beq_iff_eq, decide_eq_true_eq] at hexp
    exact (h.resolve_left (· hexp.1) start hstart).not_ge hexp.2
  · cases hexp

theorem actionDue_waits
    (h : s.noticeDue ≠ none ∨ (∃ e ∈ s.table.entries, s.deadlineBeforeDue e = true)
      ∨ ∀ e ∈ s.table.entries, e.state ≠ .armed ∨ s.now < e.due ∨ e.id ∈ s.table.firedNow) : actionDue s = s := by
  rcases actionDue_cases s with ⟨_, he⟩ | ⟨e, hnext, _⟩
  · exact he
  · unfold State.nextFiring at hnext
    split at hnext
    · cases hnext
    · rename_i hfree
      simp only [Bool.or_eq_true, List.any_eq_true, not_or, Bool.not_eq_true, Option.isSome_eq_false_iff,
        Option.isNone_iff_eq_none] at hfree
      have hdue : s.isDue e = true := by simpa using List.find?_some hnext
      simp only [State.isDue, Bool.and_eq_true, beq_iff_eq, decide_eq_true_eq, Bool.not_eq_true',
        List.contains_eq_mem, decide_eq_false_iff_not] at hdue
      obtain ⟨⟨harmed, hreached⟩, hunfired⟩ := hdue
      rcases (h.resolve_left (· hfree.1)).resolve_left hfree.2 e (List.mem_of_find?_eq_some hnext) with hc | hc | hc
      · exact absurd harmed hc
      · exact absurd hreached (BitVec.not_le.2 hc)
      · exact absurd hc hunfired

theorem deadlineEvent_waits {id : ActionId}
    (h : ∀ e, s.entry? id = some e →
      e.scope = .loc ∨ e.state = .armed ∨ e.finalAwaited = true ∨ (s.now < e.due - s.cfg.marginNs ∧ id ∉ s.table.expiring)) :
    deadlineEvent id s = s := by
  rcases deadlineEvent_cases id s with he | ⟨e, hent, hdue, _⟩
  · exact he
  · simp only [State.deadlineDue, Bool.and_eq_true, beq_iff_eq, bne_iff_ne, Bool.not_eq_true', Bool.or_eq_true,
      State.deadlineReached, decide_eq_true_eq, List.contains_iff_mem, entry?_id hent] at hdue
    obtain ⟨⟨⟨hshared, harmed⟩, hfinal⟩, hreached⟩ := hdue
    rcases h e hent with hc | hc | hc | ⟨hbefore, hexpiring⟩
    · simp [hshared] at hc
    · exact absurd hc harmed
    · simp [hfinal] at hc
    · rcases hreached with hr | hr
      · exact absurd hr (BitVec.not_le.2 hbefore)
      · exact absurd hr hexpiring

theorem followUpDeadline_waits {id : ActionId}
    (h : ∀ e, s.entry? id = some e →
      e.scope = .loc ∨ e.role = .member ∨ e.state ≠ .armed ∨ needHeld s.engine.needs .commit (.entry id) = false
        ∨ e.finalAwaited = true ∨ s.now < e.due - s.cfg.marginNs) :
    followUpDeadline id s = s := by
  rcases followUpDeadline_cases id s with he | ⟨e, hent, hfollow, hfinal, hreached, _⟩
  · exact he
  · simp only [inFollowUp, Entry.ownShared, Bool.and_eq_true, beq_iff_eq, entry?_id hent] at hfollow
    obtain ⟨⟨⟨hshared, howner⟩, harmed⟩, hheld⟩ := hfollow
    simp only [State.deadlineReached, decide_eq_true_eq] at hreached
    rcases h e hent with hc | hc | hc | hc | hc | hc
    · simp [hshared] at hc
    · simp [howner] at hc
    · exact absurd harmed hc
    · simp [hheld] at hc
    · simp [hfinal] at hc
    · exact absurd hreached (BitVec.not_le.2 hc)

theorem captureEdge_waits (h : ∀ n : Channel, s.capture.edges[n] = none) : captureEdge s = s := by
  have hnone : s.nextEdge = none := by
    simp only [State.nextEdge, h, Option.map_none, List.filterMap_none, List.head?_nil]
  simp only [captureEdge, hnone]

theorem access_waits
    (h : s.ctl.state ∉ [StationState.joining, .synced, .holdover, .leaving] ∨ s.engine.frame ≠ none ∨ s.line.condition ≠ .quiet
      ∨ s.line.phase ≠ .hunt ∨ s.engine.needs = []) : access s = s := by
  rcases access_cases s with he | ⟨need, hmay, hneed, _⟩
  · exact he
  · simp only [State.mayAccess, Bool.and_eq_true, beq_iff_eq, Option.isNone_iff_eq_none] at hmay
    obtain ⟨⟨⟨hdrives, hframe⟩, hquiet⟩, hhunt⟩ := hmay
    rcases h with hc | hc | hc | hc | hc
    · exact absurd (drives_iff.1 hdrives) hc
    · exact absurd hframe hc
    · exact absurd hquiet hc
    · exact absurd hhunt hc
    · simp [hc, selectNeed] at hneed

theorem roundStart_waits
    (h : s.rounds.active = false ∨ s.noticeDue ≠ none ∨ s.now.toNat / s.cfg.roundLength = s.rounds.round) : roundStart s = s := by
  refine if_neg fun hdue => ?_
  simp only [State.roundStartDue, Bool.and_eq_true, Option.isNone_iff_eq_none, bne_iff_ne, roundOf] at hdue
  obtain ⟨⟨hactive, hnotice⟩, hround⟩ := hdue
  rcases h with hc | hc | hc
  · simp [hactive] at hc
  · exact hc hnotice
  · exact hround hc

theorem roundClose_waits {c : CloseOrder}
    (h : s.rounds.active = false ∨ s.rounds.windowOpen = false ∨ s.noticeDue ≠ none
      ∨ s.now.toNat < s.rounds.round * s.cfg.roundLength + s.cfg.roundLength / 2) : roundClose c s = s := by
  refine if_neg fun hdue => ?_
  simp only [State.closeDue, Bool.and_eq_true, Option.isNone_iff_eq_none, decide_eq_true_eq] at hdue
  obtain ⟨⟨⟨hactive, hwindow⟩, hnotice⟩, hpoint⟩ := hdue
  rcases h with hc | hc | hc | hc
  · simp [hactive] at hc
  · simp [hwindow] at hc
  · exact hc hnotice
  · exact hc.not_ge hpoint

theorem lineQuiet_waits (h : s.line.phase = .idle ∨ s.line.condition = .quiet ∨ s.line.quietCount < 12 * s.bitTime) :
    lineQuiet s = s := by
  refine if_neg fun hdue => ?_
  simp only [State.quietDue, Bool.and_eq_true, bne_iff_ne, decide_eq_true_eq] at hdue
  obtain ⟨⟨hphase, hquiet⟩, hcount⟩ := hdue
  rcases h with hc | hc | hc
  · exact hphase hc
  · exact hquiet hc
  · omega

theorem lineStuck_waits {o : FaultOrder}
    (h : s.line.phase = .idle ∨ s.line.condition ≠ .active ∨ s.line.stuckCount < 24 * s.bitTime) : lineStuck o s = s := by
  refine if_neg fun hdue => ?_
  simp only [State.stuckDue, Bool.and_eq_true, bne_iff_ne, beq_iff_eq, decide_eq_true_eq] at hdue
  obtain ⟨⟨hphase, hactive⟩, hcount⟩ := hdue
  rcases h with hc | hc | hc
  · exact hphase hc
  · exact hc hactive
  · omega

theorem stepNotice_waits {first : Bool} (h : s.noticeDue = none) : stepNotice first s = s := by
  simp only [stepNotice, h]

/-- Settles O17: each row's condition, taken apart, contradicts what the hypothesis leaves. -/
theorem eventsWaitForTheirConditions : Obligations.EventsWaitForTheirConditions := by
  refine ⟨fun s o row hrow hfind => exec_findingRow_waits hrow hfind, fun s o row hrow h => ?_, fun s o c first ch id =>
    ⟨fun h => ?_, fun h => ?_, fun h => ?_, fun h => ?_, fun h => ?_, fun h => ?_, fun h => ?_, fun h => ?_, fun h => ?_,
      fun h => ?_, fun h => ?_, fun h => ?_⟩⟩
  · obtain ⟨take, hear, he⟩ := exec_acceptanceRow hrow o s
    rw [he, acceptFrame_waits fun _ => h]
  · rw [exec_lineQuiet, lineQuiet_waits h]
  · rw [exec_lineStuck, lineStuck_waits h]
  · rw [exec_access, access_waits h]
  · rw [exec_listenTimeout, listenTimeout_waits h]
  · rw [exec_roundStart, roundStart_waits h]
  · rw [exec_roundClose, roundClose_waits h]
  · rw [exec_stepNotice, stepNotice_waits h]
  · rw [exec_actionDue, actionDue_waits h]
  · rw [exec_pulseEnd, pulseEnd_waits h]
  · rw [exec_deadlineEvent, deadlineEvent_waits h]
  · rw [exec_followUpDeadline, followUpDeadline_waits h]
  · rw [exec_captureEdge, captureEdge_waits h]

/-! ### How a frame begins -/

/-- The pattern of cell 0 is the kind code's. -/
theorem sendPattern_zero (need : Need) (s : State) : sendPattern (frameCells need s) 0 = bytePattern need.kind.code := by
  simp [sendPattern, frameCells]

/-- The state with cell 0 begun at the edge of this period (R9). -/
def State.beginCell (s : State) : State := { s with line := s.line.beginCell s.period }

/-- An access whose conditions hold begins its cell before it opens the frame (R25). -/
theorem access_taken {need : Need} (hdrives : s.ctl.state ∈ [StationState.joining, .synced, .holdover, .leaving])
    (hframe : s.engine.frame = none) (hquiet : s.line.condition = .quiet) (hhunt : s.line.phase = .hunt)
    (hneed : selectNeed s.engine.needs = some need) :
    access s = latchFrameStart (openTransmit need (driveNow s.beginCell)) := by
  have hmay : s.mayAccess = true := by simp [State.mayAccess, drives_iff.2 hdrives, hframe, hquiet, hhunt]
  simp only [access, hmay, if_true, hneed]
  rfl

/-- A station that opens a frame and latches its start has the kind code's pattern for cell 0, and the stamp of this period (R27, R51). -/
theorem latch_openTransmit (need : Need) (hoff : s.ctl.state ≠ .off) (hfault : s.ctl.state ≠ .fault) :
    latchFrameStart (openTransmit need s) =
      { s with
        engine.frame := some ⟨.transmit need (frameCells need s), [], 0xFFFF, false, 0, false⟩
        base.latch := some ⟨s.base.time - 80, s.period⟩
        line.pattern := some (bytePattern need.kind.code) } := by
  rw [latchFrameStart_sets (s := openTransmit need s) hoff hfault, openTransmit, sendPattern_zero]
  rfl

/-- A driver that works goes dominant in the period, which is read again with it (R1, R6, R7). -/
theorem driveNow_works (henabled : s.driverEnabled = true) (hworks : s.pins.driverFails = false) :
    driveNow s =
      { s with
        line.driver := true
        line.reading := .dominant
        line.quietCount := 0
        line.stuckCount := min (24 * s.bitTime) (s.line.stuckCount + 1)
        line.condition := .active } := by
  simp [driveNow, henabled, hworks]

/-- A driver that fails, or that RESET_N holds released, leaves the period as it was read. -/
theorem driveNow_fails (hdrives : s.ctl.state.drives = true) (hfails : s.pins.driverFails = true ∨ s.resetLow = true) :
    driveNow s = { s with line.driver := if s.resetLow then s.line.driver else true } := by
  by_cases hlow : s.resetLow = true
  · rw [if_pos hlow, driveNow, if_neg (by simp [State.driverEnabled, hlow])]
  · have henabled : s.driverEnabled = true := by simp [State.driverEnabled, hdrives, hlow]
    rw [if_neg hlow, driveNow, if_pos henabled, if_pos (hfails.resolve_right hlow)]

/-- The latch of this period's edge (R50, R51). -/
theorem latch_beginCell (h : s.ctl.state ∉ [StationState.off, .fault]) :
    latchFrameStart s.beginCell = { s.beginCell with base.latch := some ⟨s.base.time - 80, s.period⟩ } := by
  simp only [List.mem_cons, List.not_mem_nil, or_false, not_or] at h
  exact latchFrameStart_sets (s := s.beginCell) h.1 h.2

/-- A station in LISTEN, or without a need, receives (R26). -/
theorem takeFrameStart_receives (hst : s.ctl.state ∉ [StationState.off, .fault])
    (h : s.ctl.state = .listen ∨ s.engine.needs = []) :
    takeFrameStart s = { latchFrameStart s.beginCell with engine.frame := some (Frame.opened .receive) } := by
  simp only [List.mem_cons, List.not_mem_nil, or_false, not_or] at hst
  unfold takeFrameStart
  split
  case h_1 hs => exact absurd hs hst.1
  case h_2 hs => exact absurd hs hst.2
  case h_3 => rfl
  all_goals
    rename_i hs
    rw [h.resolve_left (by simp [hs])]
    rfl

/-- A station that drives and holds a need joins the frame as a sender (R26). -/
theorem takeFrameStart_joins {need : Need} (hst : s.ctl.state ∉ [StationState.off, .fault]) (hlisten : s.ctl.state ≠ .listen)
    (hneed : selectNeed s.engine.needs = some need) :
    takeFrameStart s = openTransmit need (latchFrameStart s.beginCell) := by
  simp only [List.mem_cons, List.not_mem_nil, or_false, not_or] at hst
  unfold takeFrameStart
  split
  case h_1 hs => exact absurd hs hst.1
  case h_2 hs => exact absurd hs hst.2
  case h_3 hs => exact absurd hs hlisten
  all_goals
    simp only [hneed]
    rfl

/-- Settles O24: the period is read again with the driver (`driveNow_works`) or as it was (`driveNow_fails`), and the frame opens on it. -/
theorem framesBeginByAccessOrByJoining : Obligations.FramesBeginByAccessOrByJoining := by
  refine ⟨fun s need hst hlow hframe hquiet hhunt hneed hworks => ?_, fun s need hst hframe hquiet hhunt hneed hfails => ?_,
    fun s hfind hst => ?_⟩
  · have hdrives := drives_iff.2 hst
    obtain ⟨hoff, hfault⟩ := drives_holdsFrame hdrives
    have henabled : s.driverEnabled = true := by simp [State.driverEnabled, hdrives, hlow]
    rw [exec_access, access_taken hst hframe hquiet hhunt hneed, driveNow_works (s := s.beginCell) henabled hworks]
    refine congrArg Host.Outcome.next ((latch_openTransmit need ?_ ?_).trans rfl)
    · exact hoff
    · exact hfault
  · have hdrives := drives_iff.2 hst
    obtain ⟨hoff, hfault⟩ := drives_holdsFrame hdrives
    rw [exec_access, access_taken hst hframe hquiet hhunt hneed, driveNow_fails (s := s.beginCell) hdrives hfails]
    refine congrArg Host.Outcome.next ((latch_openTransmit need ?_ ?_).trans rfl)
    · exact hoff
    · exact hfault
  · intro t
    refine ⟨fun h => ?_, fun need hlisten hneed => ?_⟩
    · rw [exec_frameStart, frameStart, if_pos hfind, takeFrameStart_receives hst h, latch_beginCell hst]
      rfl
    · rw [exec_frameStart, frameStart, if_pos hfind, takeFrameStart_joins hst hlisten hneed, latch_beginCell hst, openTransmit,
        sendPattern_zero]
      rfl

end Sys2Proof.Machine
end

section
/-! PROOFS. One cell at every bit (O52): the patterns, the readback, the delivery. -/

namespace Sys2Proof.Machine

variable {s : State} {f : Frame} {need : Need} {out : List Byte}

/-! ### Bits and patterns -/

theorem byteOfBits_bits (b : Byte) : byteOfBits [b[7], b[6], b[5], b[4], b[3], b[2], b[1], b[0]] = b := by
  revert b; decide

/-- The pattern of a byte: start driven, data bits of value 0 driven, stop released (R14, R27). -/
theorem bytePattern_bits (b : Byte) :
    (bytePattern b)[0] = true ∧ (bytePattern b)[9] = false
      ∧ ∀ i : Fin 8, (bytePattern b).getLsbD (i.val + 1) = !b.getLsbD (7 - i.val) := by
  revert b; decide

theorem slotPattern_bit (own : Station) (j : Nat) : (slotPattern own).getLsbD j = decide (j = own.val % 8 + 1) := by
  have hmod : own.val % 8 < 8 := Nat.mod_lt _ (by decide)
  simp only [slotPattern, BitVec.getLsbD_shiftLeft, BitVec.getLsbD_one]
  rw [Bool.eq_iff_iff]
  simp
  omega

/-! ### The sample instants -/

/-- Outside the sample instant of its bit, a period takes nothing from the cell (R11). -/
theorem readCell_waits {i : Nat} (hbit : s.line.bitPos = some i) (h : s.period ≠ s.line.edge + (2 * i + 1) * s.bitTime / 2) :
    readCell s = s := by
  simp only [readCell, hbit]
  exact if_neg h

theorem readCell_samples {i : Nat} (hbit : s.line.bitPos = some i) (h : s.period = s.line.edge + (2 * i + 1) * s.bitTime / 2) :
    readCell s = sampleBit i s := by
  simp only [readCell, hbit]
  exact if_pos h

/-- A data bit joins the byte, and is compared with the pattern (R11, R15). -/
theorem sampleBit_data {i : Nat} (h1 : 1 ≤ i) (h8 : i ≤ 8) :
    sampleBit i s =
      readBack (i - 1) { s with line.shift := s.line.shift ++ [s.line.reading == .recessive], line.bitPos := some (i + 1) } := by
  rw [sampleBit, if_neg (by omega), if_pos h8]

/-- The stop bit (R12). -/
theorem sampleBit_stop :
    sampleBit 9 s =
      match s.line.reading with
      | .recessive => deliverCell s
      | .dominant => { s with line.bitPos := none, line.finding := some .stopError } := rfl

/-! ### The readback -/

/-- Without a pattern, a frame or an enabled driver there is no comparison. -/
theorem readBack_idle {pos : Nat} (h : s.line.pattern = none ∨ s.driverEnabled = false ∨ s.engine.frame = none) :
    readBack pos s = s := by
  unfold readBack
  split
  · rename_i hframe hpattern
    rw [if_neg]
    rcases h with h | h | h
    · simp [h] at hpattern
    · simp [h]
    · simp [h] at hframe
  · rfl

/-- A receiver compares the bits that it drives. -/
theorem readBack_receive {pos : Nat} {p : BitVec 10} (hp : s.line.pattern = some p) (hd : s.driverEnabled = true)
    (hf : s.engine.frame = some f) (hr : f.role = .receive) :
    readBack pos s =
      if p.getLsbD (pos + 1) ∧ s.line.reading = .recessive then { s with line.finding := some .deadBit } else s := by
  simp only [readBack, hf, hp, hd, if_true, hr]

/-- A sender compares every bit, and behind cell N + 4 gathers the acks (R33, R35). -/
theorem readBack_transmit {pos : Nat} {p : BitVec 10} (hp : s.line.pattern = some p) (hd : s.driverEnabled = true)
    (hs : s.sends need out f) :
    readBack pos s =
      if out.length - 3 + 5 ≤ f.cells.length ∧ s.line.reading = .dominant then
        { s with
          line.finding := sentBitFinding (out.length - 3) f.cells.length (p.getLsbD (pos + 1)) s.line.reading
          engine.frame := some { f with ackSet := gatherAck s.own (out.length - 3) f.cells.length pos f.ackSet } }
      else
        { s with line.finding := sentBitFinding (out.length - 3) f.cells.length (p.getLsbD (pos + 1)) s.line.reading } := by
  simp only [readBack, hs.1, hp, hd, if_true, hs.2]

/-! ### The delivery -/

theorem addCell_length_short {b : Byte} {edge : Nat} (h : f.cells.length ≤ 1) : (f.addCell b edge).length = 0 := by
  have hnone : (f.cells ++ [(b, edge)])[2]? = none := List.getElem?_eq_none (by simp; omega)
  simp [Frame.length, Frame.byte, Frame.addCell, hnone]

theorem addCell_length_at {b : Byte} {edge : Nat} (h : f.cells.length = 2) : (f.addCell b edge).length = b.toNat := by
  have hlast : (f.cells ++ [(b, edge)])[2]? = some (b, edge) := by rw [← h]; exact List.getElem?_concat_length
  simp [Frame.length, Frame.byte, Frame.addCell, hlast]

theorem addCell_length_long {b : Byte} {edge : Nat} (h : 3 ≤ f.cells.length) : (f.addCell b edge).length = f.length := by
  have hkept : (f.cells ++ [(b, edge)])[2]? = f.cells[2]? := List.getElem?_append_left (by omega)
  simp [Frame.length, Frame.byte, Frame.addCell, hkept]

/-- The frame with the cell that is delivered. -/
def State.grown (s : State) (f : Frame) : Frame := f.addCell (byteOfBits s.line.shift) s.line.edge

/-- The state with the cell delivered to the frame, and the latch discarded behind a first cell of another kind than SYNC (R51). -/
def State.delivered (s : State) (f : Frame) : State :=
  { s with
    engine.frame := some (s.grown f)
    base.latch := if f.cells.length = 0 ∧ byteOfBits s.line.shift ≠ 0x11 then none else s.base.latch }

/-- A delivery: the line awaits no further bit where the finding is the frame's last, and else goes into the gap (R12, R29, R33). -/
theorem deliverCell_frame (hf : s.engine.frame = some f) :
    deliverCell s =
      if ((deliveryFinding (s.grown f) f.cells.length).map Finding.last).getD false then
        { s.delivered f with
          line.bitPos := none
          line.pattern := none
          line.finding := deliveryFinding (s.grown f) f.cells.length }
      else
        { s.delivered f with
          line := s.line.toGap (nextPattern s.own (s.grown f) f.cells.length) (deliveryFinding (s.grown f) f.cells.length) } := by
  simp only [deliverCell, hf]
  by_cases hc : f.cells.length = 0 ∧ byteOfBits s.line.shift ≠ FrameKind.sync.code
  · have hlatch : s.delivered f = { dropLatch s with engine.frame := some (s.grown f) } := by
      simp only [State.delivered, if_pos (show f.cells.length = 0 ∧ byteOfBits s.line.shift ≠ 0x11 from hc)]
      rfl
    rw [if_pos hc, hlatch]
    rfl
  · have hlatch : s.delivered f = { s with engine.frame := some (s.grown f) } := by
      simp only [State.delivered, if_neg (show ¬(f.cells.length = 0 ∧ byteOfBits s.line.shift ≠ 0x11) from hc)]
    rw [if_neg hc, hlatch]
    rfl

/-- Behind a delivery that leaves no finding, or not the frame's last, the gap follows. -/
theorem deliverCell_goesOn {pattern : Option (BitVec 10)} {x : Option Finding} (hf : s.engine.frame = some f)
    (hp : nextPattern s.own (s.grown f) f.cells.length = pattern) (hx : deliveryFinding (s.grown f) f.cells.length = x)
    (hlast : (x.map Finding.last).getD false = false) :
    deliverCell s = { s.delivered f with line := s.line.toGap pattern x } := by
  rw [deliverCell_frame hf, hx, hp, hlast]
  rfl

/-- Behind a delivery with the frame's last finding, the event of its row ends the frame. -/
theorem deliverCell_ends {x : Finding} (hf : s.engine.frame = some f) (hx : deliveryFinding (s.grown f) f.cells.length = some x)
    (hlast : x.last = true) :
    deliverCell s = { s.delivered f with line.bitPos := none, line.pattern := none, line.finding := some x } := by
  rw [deliverCell_frame hf, hx, Option.map_some, hlast]
  rfl

/-- What a receiver makes of a delivered cell, and the pattern of the next one (R29, R32). -/
theorem receiver_delivery (hr : f.role = .receive) :
    deliveryFinding (s.grown f) f.cells.length = receivedFinding (s.grown f) f.cells.length
      ∧ nextPattern s.own (s.grown f) f.cells.length =
        if f.acks ∧ f.cells.length = (s.grown f).length + 5 ∧ 8 ≤ s.own.val then some (slotPattern s.own) else none := by
  have hg : (s.grown f).role = .receive := hr
  refine ⟨by simp only [deliveryFinding, hg], ?_⟩
  simp only [nextPattern, hg]
  rfl

/-- What a sender makes of a delivered cell, and the pattern of the next one (R27, R31, R33, R34). -/
theorem sender_delivery {n : Nat} (hr : f.role = .transmit need out) (hlen : out.length = n + 3) :
    deliveryFinding (s.grown f) f.cells.length = sentFinding n f.cells.length
      ∧ nextPattern s.own (s.grown f) f.cells.length =
        if f.cells.length < n + 6 then some (sendPattern out (f.cells.length + 1)) else none := by
  have hg : (s.grown f).role = .transmit need out := hr
  refine ⟨by simp only [deliveryFinding, hg, hlen, Nat.add_sub_cancel], ?_⟩
  simp only [nextPattern, hg, hlen]

/-- A receiver's delivery with none of its three findings, ack slot apart (R29). -/
theorem receive_goesOn (hf : s.engine.frame = some f) (hr : f.role = .receive)
    (hshort : f.cells.length = 2 → (s.grown f).length ≤ 24) (haccept : 3 ≤ f.cells.length → f.cells.length ≠ (s.grown f).length + 4)
    (hdone : 3 ≤ f.cells.length → f.cells.length ≠ (s.grown f).length + 6) :
    deliverCell s =
      { s.delivered f with
        line :=
          s.line.toGap
            (if f.acks ∧ f.cells.length = (s.grown f).length + 5 ∧ 8 ≤ s.own.val then some (slotPattern s.own) else none) none } := by
  obtain ⟨hfinding, hpattern⟩ := receiver_delivery (s := s) hr
  refine deliverCell_goesOn hf hpattern (hfinding.trans ?_) rfl
  rw [receivedFinding, if_neg, if_neg, if_neg] <;> rintro ⟨h, h'⟩
  · exact hdone h h'
  · exact haccept h h'
  · exact h'.not_ge (hshort h)

/-- Settles O52: at each sample instant the bit is read back (`readBack_receive`, `readBack_transmit`), and behind the stop bit the cell is
delivered (`deliverCell_goesOn`, `deliverCell_ends`). -/
theorem cellsCarryOneByte : Obligations.CellsCarryOneByte := by
  refine ⟨byteOfBits_bits, bytePattern_bits, slotPattern_bit, fun s i => readCell_waits, fun s hbit hperiod => ?_,
    fun s i hbit hperiod h1 h8 => ?_, fun s hbit hperiod => ?_⟩
  · have hsample : readCell s = sampleBit 0 s := readCell_samples hbit (by simpa using hperiod)
    refine ⟨fun hr => ?_, fun hr => ?_⟩ <;> rw [hsample, sampleBit, if_pos rfl, hr]
    rfl
  · intro t finds
    have hsample : readCell s = readBack (i - 1) t := (readCell_samples hbit hperiod).trans (sampleBit_data h1 h8)
    have hpos : i - 1 + 1 = i := by omega
    rw [hsample]
    refine ⟨readBack_idle (s := t), fun p f hp hd hf hrole => ?_, fun p need out f n hp hd hs hlen => ?_⟩
    · rw [readBack_receive (s := t) hp hd hf hrole, hpos]
      exact ⟨fun hdriven hread => if_pos ⟨hdriven, hread⟩, fun h => if_neg (by rintro ⟨hdriven, hread⟩; simp_all [t])⟩
    · intro k
      have hn : out.length - 3 = n := by omega
      have hreading : t.line.reading = s.line.reading := rfl
      rw [readBack_transmit (s := t) hp hd hs, hpos, hn, hreading]
      refine ⟨fun hdriven hread => ?_, fun hdriven hread hk => ?_, fun hdriven hread => ?_, fun hdriven hread hk => ?_,
        fun hdriven hread h2 hk => ?_, fun slot hdriven hread hk hslot => ?_⟩ <;> rw [hdriven, hread]
      · rw [if_neg (by simp)]
        rfl
      · rw [if_neg fun h => hk.not_ge h.1]
        rfl
      · rw [if_neg (by simp)]
        rfl
      · rw [if_neg fun h => by omega, sentBitFinding, if_pos hk]
      · rw [if_neg fun h => by omega, sentBitFinding, if_neg (by omega), if_pos hk]
      · have hstation : slotStation n f.cells.length (i - 1) = slot.val := hslot.symm
        have hack : gatherAck s.own n f.cells.length (i - 1) f.ackSet =
            if slot = s.own then f.ackSet else f.ackSet ||| 1#16 <<< slot.val := by
          simp only [gatherAck, hstation, Fin.ext_iff]
        rw [if_pos ⟨hk, rfl⟩, sentBitFinding, if_neg (by omega), if_neg (by omega)]
        rw [show t.own = s.own from rfl, hack]
  · have hsample : readCell s = sampleBit 9 s := readCell_samples hbit hperiod
    rw [hsample, sampleBit_stop]
    refine ⟨fun hr => by rw [hr], fun hr hf => by rw [hr]; simp only [deliverCell, hf]; rfl, fun f hr hf => ?_⟩
    intro b k t goesOn ends
    rw [hr]
    refine ⟨fun hrole => ?_, fun need out n hrole hlen => ?_⟩
    · have hshort (h : k ≤ 1) : (s.grown f).length = 0 := addCell_length_short h
      have hat (h : k = 2) : (s.grown f).length = b.toNat := addCell_length_at h
      have hlong (h : 3 ≤ k) : (s.grown f).length = f.length := addCell_length_long h
      obtain ⟨hfinding, hpattern⟩ := receiver_delivery (s := s) hrole
      refine ⟨fun hk => ?_, fun hk htoo => ?_, fun hk hfits => ?_, fun hk hpay => ?_, fun hk hcheck => ?_, fun hk hack => ?_,
        fun hk hdone => ?_⟩
      · have hlen := hshort hk
        refine (receive_goesOn hf hrole (by omega) (by omega) (by omega)).trans ?_
        rw [if_neg fun h => by omega]
        rfl
      · refine deliverCell_ends hf (hfinding.trans ?_) rfl
        rw [receivedFinding, if_pos ⟨hk, by rwa [hat hk]⟩]
      · have hlen := hat hk
        refine (receive_goesOn hf hrole (by omega) (by omega) (by omega)).trans ?_
        rw [if_neg fun h => by omega]
        rfl
      · have hlen := hlong hk
        refine (receive_goesOn hf hrole (by omega) (by omega) (by omega)).trans ?_
        rw [if_neg fun h => by omega]
        rfl
      · have hlen := hlong hk
        refine deliverCell_goesOn hf (hpattern.trans (if_neg fun h => by omega)) (hfinding.trans ?_) rfl
        rw [receivedFinding, if_neg fun h => by omega, if_pos ⟨hk, by omega⟩]
      · have hlen := hlong hk
        refine (receive_goesOn hf hrole (by omega) (by omega) (by omega)).trans ?_
        simp only [show f.cells.length = (s.grown f).length + 5 by omega, true_and]
        rfl
      · have hlen := hlong hk
        refine deliverCell_ends hf (hfinding.trans ?_) rfl
        rw [receivedFinding, if_neg fun h => by omega, if_neg fun h => by omega, if_pos ⟨hk, by omega⟩]
    · obtain ⟨hfinding, hpattern⟩ := sender_delivery (s := s) hrole hlen
      intro pattern
      have hsend (j : Nat) : sendPattern out j = pattern j := by
        simp only [sendPattern, hlen]
        rfl
      refine ⟨fun hk => ?_, fun hk => ?_⟩
      · refine deliverCell_goesOn hf (hpattern.trans ((if_pos hk).trans (congrArg some (hsend (k + 1))))) (hfinding.trans ?_) ?_
        · rw [sentFinding]
          split
          · rfl
          · exact if_neg (by omega)
        · split <;> rfl
      · refine deliverCell_ends hf (hfinding.trans ?_) rfl
        rw [sentFinding, if_neg (by omega), if_pos hk]

end Sys2Proof.Machine
end

section
/-! PROOFS. The readings of the period that the boundary begins (O50). -/

namespace Sys2Proof.Machine

variable {s : State}

/-! ### The capture inputs and the host port -/

/-- The admitted edge of an input, by its setting (R150). -/
theorem admittedEdge_eq (setting : EdgeSetting) (before : Option Bool) (now : Bool) :
    admittedEdge setting before now =
      match before, now, setting with
      | some false, true, .rise => some .rise
      | some false, true, .both => some .rise
      | some true, false, .fall => some .fall
      | some true, false, .both => some .fall
      | _, _, _ => none := by
  rcases before with _ | _ | _ <;> cases now <;> cases setting <;> rfl

/-- Each input is read once, against its level of the period before (R150). -/
theorem readCapture_all (c : ConfigRecord) (cap : BitVec 4) (u : CaptureUnit) :
    let edgeOf (i : Channel) : Option CaptureEdge := admittedEdge c.capture[i].edge u.sampled[i] (cap.getLsbD i.val)
    allChannels.foldl (readCapture c cap) u =
      { u with
        sampled := #v[some (cap.getLsbD 0), some (cap.getLsbD 1), some (cap.getLsbD 2), some (cap.getLsbD 3)]
        edges := #v[edgeOf 0, edgeOf 1, edgeOf 2, edgeOf 3] } := by
  intro edgeOf
  have hsampled : (allChannels.foldl (readCapture c cap) u).sampled =
      #v[some (cap.getLsbD 0), some (cap.getLsbD 1), some (cap.getLsbD 2), some (cap.getLsbD 3)] := by
    ext i hi : 1
    simp only [allChannels, List.foldl_cons, List.foldl_nil, readCapture]
    rcases i with _ | _ | _ | _ | i
    · simp
    · simp
    · simp
    · simp
    · omega
  have hedges : (allChannels.foldl (readCapture c cap) u).edges = #v[edgeOf 0, edgeOf 1, edgeOf 2, edgeOf 3] := by
    ext i hi : 1
    simp only [allChannels, List.foldl_cons, List.foldl_nil, readCapture]
    rcases i with _ | _ | _ | _ | i
    · simp [edgeOf]
    · simp [edgeOf]
    · simp [edgeOf]
    · simp [edgeOf]
    · omega
  obtain ⟨hrecords, hmarks⟩ := readCapture_queues c cap allChannels u
  rw [← hsampled, ← hedges, ← hrecords, ← hmarks]

/-- The Capture Unit reads its inputs in every state but OFF (R150). -/
theorem readCaptures_eq (s : State) :
    let edgeOf (i : Channel) : Option CaptureEdge :=
      admittedEdge s.cfg.capture[i].edge s.capture.sampled[i] (s.pins.cap.getLsbD i.val)
    readCaptures s =
      { s with
        capture.sampled :=
          if s.ctl.state = .off then s.capture.sampled
          else #v[some (s.pins.cap.getLsbD 0), some (s.pins.cap.getLsbD 1), some (s.pins.cap.getLsbD 2), some (s.pins.cap.getLsbD 3)]
        capture.edges := if s.ctl.state = .off then s.capture.edges else #v[edgeOf 0, edgeOf 1, edgeOf 2, edgeOf 3] } := by
  intro edgeOf
  by_cases hoff : s.ctl.state = .off
  · simp only [readCaptures, if_pos hoff]
  · simp only [readCaptures, if_neg hoff, readCapture_all]
    rfl

theorem readPort_eq (s : State) :
    readPort s =
      { s with
        port := if s.resetLow then { s.port with ended := none } else List.foldl HostPort.edge { s.port with ended := none } s.pins.spi } := by
  by_cases hlow : s.resetLow = true
  · simp only [readPort, if_pos hlow]
  · simp only [readPort, if_neg hlow]

/-- IRQ_N is asserted while a queue holds a record (R164). -/
theorem irq_eq {α β : Type} (q : List α) (q' : List β) : (!q.isEmpty || !q'.isEmpty) = decide (q ≠ [] ∨ q' ≠ []) := by
  cases q <;> cases q' <;> simp

/-! ### The line -/

/-- The line with its driver, its reading and its counts of the period, before the work of its phase (R1, R6, R7, R14). -/
def State.lineRead (s : State) : State :=
  let t := readLevel { s with line.finding := none }
  { t with line := t.line.count s.bitTime }

/-- The work of each phase (R8). -/
theorem readLine_eq (s : State) :
    readLine s =
      match s.line.phase with
      | .idle => s
      | .settle => s.lineRead
      | .hunt => readHunt s.line.reading s.lineRead
      | .cell => readCell s.lineRead
      | .gap => readGap s.ownStartDue s.lineRead := by
  unfold readLine
  generalize s.line.phase = phase
  cases phase <;> rfl

theorem wire_eq (others : Level) (drives fails : Bool) :
    wire others drives fails = if drives = true ∧ fails = false then .dominant else others := by
  cases drives <;> cases fails <;> rfl

/-- The counts and the condition behind a reading (R6, R7). -/
theorem count_eq (p : Nat) (l : Line) :
    l.count p =
      { l with
        quietCount := if l.reading = .recessive then min (12 * p) (l.quietCount + 1) else 0
        stuckCount := if l.reading = .recessive then 0 else min (24 * p) (l.stuckCount + 1)
        condition := if l.reading = .dominant ∧ l.condition = .quiet then .active else l.condition } := by
  unfold Line.count
  cases h : l.reading with
  | recessive => simp
  | dominant => simp

/-- The line of a period, as its driver and its reading make it. -/
theorem lineRead_eq {drives : Bool} {reading : Level} (hdrives : s.drives = drives)
    (hreading : wire s.pins.line drives s.pins.driverFails = reading) :
    s.lineRead =
      { s with
        line.driver := drives
        line.reading := reading
        line.quietCount := if reading = .recessive then min (12 * s.bitTime) (s.line.quietCount + 1) else 0
        line.stuckCount := if reading = .recessive then 0 else min (24 * s.bitTime) (s.line.stuckCount + 1)
        line.condition := if reading = .dominant ∧ s.line.condition = .quiet then .active else s.line.condition
        line.finding := none } := by
  subst hdrives hreading
  simp only [State.lineRead, count_eq]
  rfl

/-! ### The gap -/

/-- Without an edge, the gap is counted from ten bit times behind the edge, up to its limit (R13). -/
theorem readGap_quiet (hreading : s.line.reading = .recessive) :
    (s.period < s.line.edge + 10 * s.bitTime → readGap false s = s)
      ∧ (s.line.edge + 10 * s.bitTime ≤ s.period →
        (s.line.gapCount + 1 < 3 * s.bitTime →
            readGap false s = { s with line.gapCount := s.line.gapCount + 1, line.finding := none })
          ∧ (3 * s.bitTime ≤ s.line.gapCount + 1 →
            readGap false s = { s with line.gapCount := 3 * s.bitTime, line.finding := some .gapExpired })) := by
  have hno : ¬(false || s.line.reading == .dominant) = true := by simp [hreading]
  rw [readGap, if_neg hno]
  refine ⟨fun h => if_neg h.not_ge, fun h => ⟨fun hbelow => ?_, fun hfull => ?_⟩⟩ <;> rw [if_pos h]
  · simp only [Nat.min_eq_right hbelow.le, if_neg hbelow.ne]
  · simp only [Nat.min_eq_left hfull, if_true]

/-- The own start, or a dominant reading, begins the next cell (R12, R14). -/
theorem readGap_begins {started : Bool} (h : started = true ∨ s.line.reading = .dominant) :
    readGap started s = fillRefTime s.beginCell := by
  rw [readGap, if_pos (by simpa using h)]
  rfl

/-- Another cell than the ninth of an own SYNC takes no reference-edge time (R52). -/
theorem fillRefTime_other (h : ∀ need out f, s.sends need out f → need.kind ≠ .sync ∨ f.cells.length ≠ 9) : fillRefTime s = s := by
  unfold fillRefTime
  split
  · rename_i f hf
    split
    · rename_i need out hrole
      exact if_neg fun hc => (h need out f ⟨hf, hrole⟩).elim (· hc.1) (· hc.2)
    · rfl
  · rfl

theorem fillRefTime_sync {need : Need} {out : List Byte} {f : Frame} (hs : s.sends need out f) (hkind : need.kind = .sync)
    (hnine : f.cells.length = 9) :
    let filled := out.take 9 ++ beBytes 8 ((s.latchNow.map fun l : Latch => l.stamp).getD 0).toNat
    fillRefTime s =
      { s with
        engine.frame := some { f with role := .transmit need filled }
        line.pattern := some (sendPattern filled 9) } := by
  simp only [fillRefTime, hs.1, hs.2]
  exact if_pos ⟨hkind, hnine⟩

/-! ### The boundary -/

/-- Settles O50: the inputs are read one behind the other, and the line last, by its phase. -/
theorem boundaryReadsTheInputs : Obligations.BoundaryReadsTheInputs := by
  intro ending s pins hsettle edgeOf p b patternBit starts drives reading u next
  have hedge (i : Channel) : edgeOf i = admittedEdge s.cfg.capture[i].edge s.capture.sampled[i] (pins.cap.getLsbD i.val) :=
    (admittedEdge_eq ..).symm
  have hb : readPort (readCaptures { boundary s with pins }) = b := by
    rw [readPort_eq, readCaptures_eq]
    simp only [b, boundary, ← irq_eq, hedge]
    rfl
  have hnext : next = .next (readLine b) := by
    simp only [next, exec_commonTimeAdvance, commonTimeAdvance, readInputs, hsettle, hb]
  have hu : b.lineRead = u := lineRead_eq (Bool.or_comm ..) (wire_eq ..)
  have hphase : b.line.phase = s.line.phase := rfl
  have hstarts : b.ownStartDue = starts := rfl
  rw [readLine_eq, hphase, hu, hstarts] at hnext
  refine ⟨fun h => ?_, fun h => ?_, fun h => ⟨fun hbefore hread => ?_, fun hread => ?_⟩, fun h => ?_, fun h hno hread => ?_,
    fun h hyes => ?_⟩ <;> rw [hnext, h]
  · exact congrArg Host.Outcome.next (if_pos ⟨hbefore, hread⟩)
  · refine congrArg Host.Outcome.next (if_neg fun ⟨hbefore, hdominant⟩ => ?_)
    rcases hread with hr | hr
    · exact absurd (hr.symm.trans hbefore) (by decide)
    · exact absurd (hr.symm.trans hdominant) (by decide)
  · rw [hno]
    obtain ⟨hearly, hcount⟩ := readGap_quiet (s := u) hread
    exact ⟨fun hb => congrArg _ (hearly hb),
      fun hb => ⟨fun hn => congrArg _ ((hcount hb).1 hn), fun hn => congrArg _ ((hcount hb).2 hn)⟩⟩
  · intro begun
    rw [readGap_begins (s := u) hyes]
    exact ⟨fun hother => congrArg _ (fillRefTime_other (s := begun) hother),
      fun need out f hsends hkind hnine => congrArg _ (fillRefTime_sync (s := begun) hsends hkind hnine)⟩

end Sys2Proof.Machine
end

section
/-! PROOFS. The order of selection (O23) and the lists of the station (O51). -/

namespace Sys2Proof.Machine

/-! ### Selection -/

/-- The five classes in the order of R24. -/
def selectionOrder : List (List FrameKind) := [[.sync], [.commit, .cancel], [.propose], [.mark], [.leave]]

/-- The order at a kind: its own class, and in front of it the kinds of the lower class numbers. -/
theorem selectionOrder_at (k : FrameKind) :
    ∃ before own after, selectionOrder = before ++ own :: after ∧ (∀ j, j ∈ own ↔ j.selectionClass = k.selectionClass)
      ∧ ∀ kinds ∈ before, ∀ j ∈ kinds, j.selectionClass < k.selectionClass := by
  cases k
  case sync => exact ⟨[], [.sync], _, rfl, fun j => by cases j <;> decide, by decide⟩
  case commit => exact ⟨[[.sync]], [.commit, .cancel], _, rfl, fun j => by cases j <;> decide, by decide⟩
  case cancel => exact ⟨[[.sync]], [.commit, .cancel], _, rfl, fun j => by cases j <;> decide, by decide⟩
  case propose => exact ⟨[[.sync], [.commit, .cancel]], [.propose], _, rfl, fun j => by cases j <;> decide, by decide⟩
  case mark => exact ⟨[[.sync], [.commit, .cancel], [.propose]], [.mark], _, rfl, fun j => by cases j <;> decide, by decide⟩
  case leave =>
    exact ⟨[[.sync], [.commit, .cancel], [.propose], [.mark]], [.leave], _, rfl, fun j => by cases j <;> decide, by decide⟩

/-- A need is not behind another: by class, then by age (R24). -/
def Need.notBehind (a b : Need) : Prop :=
  a.kind.selectionClass < b.kind.selectionClass ∨ a.kind.selectionClass = b.kind.selectionClass ∧ a.age ≤ b.age

theorem beats_iff {a b : Need} : b.beats a = true ↔ ¬a.notBehind b := by
  simp only [Need.beats, Need.notBehind, Bool.or_eq_true, Bool.and_eq_true, decide_eq_true_eq, beq_iff_eq]
  omega

theorem notBehind_refl (a : Need) : a.notBehind a := .inr ⟨rfl, le_rfl⟩

theorem notBehind_trans {a b c : Need} (hab : a.notBehind b) (hbc : b.notBehind c) : a.notBehind c := by
  unfold Need.notBehind at *
  omega

theorem notBehind_of_beats {a b : Need} (h : b.beats a = true) : b.notBehind a := by
  have := beats_iff.1 h
  unfold Need.notBehind at *
  omega

/-- Selection among a need and the rest (R24). -/
theorem selectNeed_cons (a : Need) (rest : List Need) :
    selectNeed (a :: rest) = some ((selectNeed rest).elim a fun b => if b.beats a then b else a) := by
  cases h : selectNeed rest with
  | none => simp [selectNeed, h]
  | some b => simp only [selectNeed, h, Option.elim_some]; split <;> rfl

theorem selectNeed_none_iff {needs : List Need} : selectNeed needs = none ↔ needs = [] := by
  cases needs with
  | nil => simp [selectNeed]
  | cons a rest => simp [selectNeed_cons]

/-- The need that selection takes is one of the needs, and none of them stands in front of it. -/
theorem selectNeed_least {needs : List Need} {n : Need} (h : selectNeed needs = some n) : n ∈ needs ∧ ∀ m ∈ needs, n.notBehind m := by
  induction needs generalizing n with
  | nil => simp [selectNeed] at h
  | cons a rest ih =>
    rw [selectNeed_cons, Option.some.injEq] at h
    cases hrest : selectNeed rest with
    | none =>
      rw [hrest] at h
      subst h
      simp [selectNeed_none_iff.1 hrest, notBehind_refl]
    | some b =>
      obtain ⟨hmem, hleast⟩ := ih hrest
      rw [hrest, Option.elim_some] at h
      split at h
      case isTrue hbeats =>
        subst h
        exact ⟨List.mem_cons_of_mem a hmem, List.forall_mem_cons.2 ⟨notBehind_of_beats hbeats, hleast⟩⟩
      case isFalse hbeats =>
        subst h
        have hab : a.notBehind b := by simpa only [beats_iff, not_not] using hbeats
        exact ⟨List.mem_cons_self, List.forall_mem_cons.2 ⟨notBehind_refl a, fun m hm => notBehind_trans hab (hleast m hm)⟩⟩

/-- Settles O23: no need stands in front of the one that selection takes (`selectNeed_least`), read along the five classes. -/
theorem selectionIsByClassThenAge : Obligations.SelectionIsByClassThenAge := by
  intro needs
  refine ⟨selectNeed_none_iff, fun n hn => ?_⟩
  obtain ⟨hmem, hleast⟩ := selectNeed_least hn
  obtain ⟨before, own, after, heq, hown, hbefore⟩ := selectionOrder_at n.kind
  refine ⟨hmem, before, own, after, heq, (hown n.kind).2 rfl, fun m hm => ⟨fun kinds hkinds hin => ?_, fun hin => ?_⟩⟩
  · have hlower := hbefore kinds hkinds m.kind hin
    have := hleast m hm
    unfold Need.notBehind at this
    omega
  · have hsame := (hown m.kind).1 hin
    have := hleast m hm
    unfold Need.notBehind at this
    omega

/-! ### Bounded queues, the due list, needs -/

theorem joinQueue_room {α : Type} {limit : Nat} {lose : α → α} {x : α} {q : List α} (h : q.length < limit) :
    joinQueue limit lose x q = q ++ [x] := if_pos h

/-- Where the queue is full, the loss is counted on its newest item (R152, R162). -/
theorem joinQueue_full {α : Type} {limit : Nat} {lose : α → α} {x last : α} {older : List α} (h : limit ≤ older.length + 1) :
    joinQueue limit lose x (older ++ [last]) = older ++ [lose last] := by
  rw [joinQueue, if_neg (by simp; omega), onTail_append_singleton]

theorem insertEntry_perm (e : Entry) (entries : List Entry) : (insertEntry e entries).Perm (e :: entries) := by
  induction entries with
  | nil => exact .refl _
  | cons x rest ih =>
    rw [insertEntry]
    split
    · exact .refl _
    · exact (ih.cons x).trans (.swap e x rest)

/-- An entry of a new id takes its place in the order of the due list (R114). -/
theorem insertEntry_ordered {e : Entry} {entries : List Entry} (hordered : entries.Pairwise fun a b => a.before b = true)
    (hnew : ∀ x ∈ entries, x.id ≠ e.id) : (insertEntry e entries).Pairwise fun a b => a.before b = true := by
  induction entries with
  | nil => exact List.pairwise_singleton ..
  | cons x rest ih =>
    obtain ⟨hfirst, hrest⟩ := List.pairwise_cons.1 hordered
    rw [insertEntry]
    split
    case isTrue hbefore =>
      exact List.pairwise_cons.2 ⟨List.forall_mem_cons.2 ⟨hbefore, fun y hy => before_trans hbefore (hfirst y hy)⟩, hordered⟩
    case isFalse hbefore =>
      have hxe : x.before e = true := (before_total (hnew x List.mem_cons_self)).resolve_right hbefore
      refine List.pairwise_cons.2 ⟨fun y hy => ?_, ih hrest fun y hy => hnew y (List.mem_cons_of_mem x hy)⟩
      rcases mem_insertEntry.1 hy with rfl | hy
      · exact hxe
      · exact hfirst y hy

/-- The needs that the Frame Engine takes when they are raised (R22). -/
theorem discardsNeed_false_iff {state : StationState} {kind : FrameKind} :
    discardsNeed state kind = false ↔
      state ∈ [StationState.joining, .synced, .holdover] ∨ (state = .leaving ∧ kind = .leave) := by
  cases state <;> simp [discardsNeed]

theorem discardsNeed_iff {state : StationState} {kind : FrameKind} :
    discardsNeed state kind = true ↔
      state ∈ [StationState.off, .listen, .fault] ∨ (state = .leaving ∧ kind ≠ .leave) := by
  cases state <;> simp [discardsNeed]

/-- Settles O51, list by list. -/
theorem listsKeepTheirOrder : Obligations.ListsKeepTheirOrder :=
  ⟨fun _ _ => joinQueue_room, fun _ _ _ hfull => joinQueue_full (by omega), fun _ _ => joinQueue_room,
    fun _ _ _ hfull => joinQueue_full (by omega), fun e entries => ⟨insertEntry_perm e entries, insertEntry_ordered⟩,
    fun _ _ _ => ⟨fun h => raiseNeed_taken (discardsNeed_false_iff.2 h), fun h => raiseNeed_discarded (discardsNeed_iff.2 h)⟩⟩

end Sys2Proof.Machine
end

section
/-! PROOFS. The Action Protocol's operations on one entry, written out as changes of the table, the needs and the reports. -/

namespace Sys2Proof.Machine

variable {s : State} {e : Entry} {kind : FrameKind} {id : ActionId} {acks : StationSet} {held : Bool}

/-! ### Reading an entry -/

/-- A set within another leaves nothing out of it. -/
theorem setWithin_iff {a b : StationSet} : setWithin a b = true ↔ setLess a b = 0 := by simp [setWithin]

theorem committed_iff : e.committed = true ↔ e.armedSet ≠ none := by simp [Entry.committed, Option.isSome_iff_ne_none]

theorem covered_iff : e.covered = true ↔ e.missing = 0 := setWithin_iff

theorem pointReached_marks {r : CancelReason} {p : Bool} (h : e.marks = some ⟨r, p⟩) : e.pointReached = p := by
  simp [Entry.pointReached, h]

theorem byHost_marks {r : CancelReason} {p : Bool} (h : e.marks = some ⟨r, p⟩) : e.byHost = (r == .host) := by
  simp [Entry.byHost, h]

/-! ### Changes of the table -/

/-- A dropped id is no longer found. -/
theorem entry?_dropped {entries : List Entry} (h : s.table.entries = dropEntry id entries) : s.entry? id = none := by
  simp [State.entry?, h, dropEntry]

/-- An entry stored and its need raised, in a station that takes part (R22, R114). -/
theorem raiseFor_putEntry (kind : FrameKind) (e : Entry) (h : s.ctl.state.takesPart = true) :
    raiseFor kind e (putEntry e s) =
      { s with
        table.entries := insertEntry e (dropEntry e.id s.table.entries)
        engine.needs := s.engine.needs.filter (fun n => n.source != .entry e.id) ++ [⟨kind, .entry e.id, s.engine.nextAge⟩]
        engine.nextAge := s.engine.nextAge + 1 } :=
  raiseNeed_taken (s := putEntry e s) (takesPart_keeps_needs h kind)

/-- The stations of the armed set that have not acked (R135). -/
def Entry.unarmed (e : Entry) : StationSet := setLess (e.armedSet.getD 0) e.acks

/-- The end of a follow-up: the entry holds no need, and the reports tell whether the armed set is covered (R135). -/
theorem endFollowUp_eq (e : Entry) (s : State) :
    endFollowUp e s =
      { s with
        table.entries := insertEntry { e with finalAwaited := false } (dropEntry e.id s.table.entries)
        engine.needs := s.engine.needs.filter fun n => n.source != .entry e.id
        reports.records :=
          if e.unarmed = 0 then s.reported (.actionArmed e.id (e.armedSet.getD 0)) s.ctl.state
          else
            joinQueue 32 Report.lose ⟨.commitIncomplete e.id e.unarmed, s.now, s.ctl.state, 0⟩
              (s.reported (.actionArmed e.id (e.armedSet.getD 0)) s.ctl.state) } := by
  have hreports : e.followUpReports =
      .actionArmed e.id (e.armedSet.getD 0) :: if e.unarmed = 0 then [] else [.commitIncomplete e.id e.unarmed] := rfl
  rw [endFollowUp, queueReports_eq, hreports]
  split <;> rfl

/-- The end of a cancel: the entry goes with its need, and a committed one whose set is not covered is reported (R145, R146). -/
theorem endCancel_eq (e : Entry) (s : State) :
    endCancel e s =
      { s with
        table.entries := dropEntry e.id s.table.entries
        engine.needs := s.engine.needs.filter fun n => n.source != .entry e.id
        reports.records :=
          if e.armedSet = none ∨ e.missing = 0 then s.reports.records
          else s.reported (.cancelIncomplete e.id e.missing) s.ctl.state } := by
  have hreports : e.incompleteReports = if e.armedSet = none ∨ e.missing = 0 then [] else [.cancelIncomplete e.id e.missing] := by
    rw [Entry.incompleteReports, ← ite_not]
    congr 1
    simp only [Bool.and_eq_true, Bool.not_eq_true', ← Bool.not_eq_true, committed_iff, covered_iff, not_and_or, ne_eq, not_not]
  rw [endCancel, queueReports_eq, hreports]
  split <;> rfl

/-- A completed COMMIT of an entry in follow-up: it goes on while the armed set is not covered, two tries at most are done, and the
deadline lies ahead (R135). -/
theorem commitCompleted_eq (acks : StationSet) (old : Entry) (s : State) :
    let e := old.withTry (acks &&& old.armedSet.getD 0)
    commitCompleted acks old s =
      if e.unarmed ≠ 0 ∧ e.tries.getD 0 < 3 ∧ s.now < e.due - s.cfg.marginNs ∧ e.finalAwaited = false then
        raiseFor .commit e (putEntry e s)
      else endFollowUp e s := by
  intro e
  rw [commitCompleted]
  congr 1
  have hcovered : setWithin (e.armedSet.getD 0) e.acks = true ↔ e.unarmed = 0 := setWithin_iff
  have hahead : s.deadlineReached e = false ↔ s.now < e.due - s.cfg.marginNs := by
    rw [State.deadlineReached, decide_eq_false_iff_not, BitVec.not_le]
    rfl
  simp only [Bool.and_eq_true, Bool.not_eq_true', ← Bool.not_eq_true (setWithin _ _), decide_eq_true_eq, e] at hcovered hahead ⊢
  rw [hcovered, hahead, and_assoc, and_assoc, and_comm (a := Entry.finalAwaited _ = false)]

/-- A completed CANCEL of a CANCELLING entry: a committed one goes on while its required set is not covered and two tries at most are
done (R145, R146). -/
theorem cancelCompleted_eq (acks : StationSet) (old : Entry) (s : State) :
    let e := old.withTry acks
    cancelCompleted acks old s =
      if e.armedSet ≠ none ∧ e.missing ≠ 0 ∧ e.tries.getD 0 < 3 ∧ e.finalAwaited = false then raiseFor .cancel e (putEntry e s)
      else endCancel e s := by
  intro e
  rw [cancelCompleted]
  congr 1
  simp only [Bool.and_eq_true, Bool.not_eq_true', ← Bool.not_eq_true (Entry.covered _), decide_eq_true_eq, committed_iff, covered_iff, e,
    and_assoc]

/-! ### Reports of the Frame Engine to an entry -/

theorem entryCompleted_commit (he : s.entry? e.id = some e) (hstate : e.state = .armed) (hscope : e.scope = .shared)
    (hrole : e.role = .owner) : entryCompleted .commit e.id acks true s = commitCompleted acks e s := by
  simp [entryCompleted, he, hstate, Entry.ownShared, hscope, hrole]

theorem entryCompleted_cancel (he : s.entry? e.id = some e) (hstate : e.state = .cancelling) :
    entryCompleted .cancel e.id acks held s = cancelCompleted acks e s := by simp [entryCompleted, he, hstate]

theorem entryCompleted_gone (h : s.entry? id = none) : entryCompleted kind id acks held s = s := by simp [entryCompleted, h]

theorem entryFailed_gone (h : s.entry? id = none) : entryFailed kind id held s = s := by simp [entryFailed, h]

theorem entryFailed_lastCommit (he : s.entry? e.id = some e) (hstate : e.state = .armed) (hlast : e.finalAwaited = true) :
    entryFailed .commit e.id true s = endFollowUp e s := by simp [entryFailed, he, hstate, hlast]

theorem entryFailed_lastCancel (he : s.entry? e.id = some e) (hstate : e.state = .cancelling) (hlast : e.finalAwaited = true) :
    entryFailed .cancel e.id held s = endCancel e s := by simp [entryFailed, he, hstate, hlast]

end Sys2Proof.Machine
end

section
/-! PROOFS. What becomes of an own frame at a readback mismatch (O25), at its check point (O26), and at its outcome (O27, O29). -/

namespace Sys2Proof.Machine

variable {s : State} {need : Need} {out : List Byte} {f : Frame} {e : Entry} {o : FaultOrder}

/-! ### Readback mismatches -/

/-- An own ack slot read recessive, below the limit: the reception goes on with one failure more (R36). -/
theorem deadBit_acker (hframe : s.engine.frame = some f) (hrole : f.role = .receive) (hrun : s.engine.run < 15) (o : FaultOrder) :
    deadBit o s = { s with engine.run := s.engine.run + 1, line.pattern := none, line.finding := none } := by
  have hcount : countFailure (clearFinding (releaseOrder s)) =
      { s with engine.run := s.engine.run + 1, line.pattern := none, line.finding := none } := by
    have hmin : min 16 (s.engine.run + 1) = s.engine.run + 1 := by omega
    simp only [countFailure, clearFinding_engine, releaseOrder_engine, hmin]
    rfl
  simp only [deadBit, hframe, Option.map_some, hrole, hcount]
  refine faultAtLimit_below (s := State.mk ..) ?_ o
  simp only
  omega

/-- Settles O25: COLLISION and a sender's DRIVER_FAILURE are ways of failing (`exec_quietFailure`). -/
theorem readbackMismatchEndsTheSending : Obligations.ReadbackMismatchEndsTheSending := by
  refine ⟨fun s need out f ⟨hframe, hrole⟩ hfind => ?_, fun s o need out f hsends hquiet hrun hfind => ?_,
    fun s o need out f hsends hquiet hrun hfind => ?_, fun s o f hframe hrole hrun hfind => ?_⟩
  · simp only [exec_arbitrationLost, arbitrationLost, hfind, hframe, Option.map_some, hrole, giveUpSending]
    rfl
  · exact exec_quietFailure hsends (.inr (.inr (.inl ⟨hfind, rfl, rfl⟩))) hquiet hrun
  · exact exec_quietFailure hsends (.inr (.inr (.inr (.inl ⟨hfind, rfl, rfl⟩)))) hquiet hrun
  · simp only [exec_driverFailure, driverFailure, hfind, deadBit_acker hframe hrole hrun]

/-! ### The check point -/

/-- The state with the check point set and its finding taken (R34). -/
def State.checked (s : State) (f : Frame) : State :=
  { s with engine.frame := some { f with checkPoint := true }, line.finding := none }

/-- The check point of an own frame, and for a SYNC the end of its latch, come before the report to the source (R34, R51). -/
theorem checkComplete_sends (hsends : s.sends need out f) (hfind : s.line.finding = some .ownCheckDone) :
    checkComplete s =
      reportCheckComplete need (if need.kind = .sync then { s.checked f with base.latch := none } else s.checked f) := by
  have hchecked : clearFinding (markCheckPoint s) = s.checked f := atAcceptance_eq hsends.1
  simp only [checkComplete, hfind, hsends.1, Option.map_some, hsends.2, hchecked]

/-- The check point of a frame of an entry (R147). -/
theorem checkComplete_entry (hsends : s.sends need out f) (hfind : s.line.finding = some .ownCheckDone)
    (hsource : need.source = .entry e.id) (hkind : need.kind ≠ .sync) :
    checkComplete s = entryCheckComplete need.kind e.id (s.checked f) := by
  rw [checkComplete_sends hsends hfind, if_neg hkind]
  simp only [reportCheckComplete, hsource]

theorem entryCheckComplete_commit (he : s.entry? e.id = some e) (hstate : e.state = .committing) :
    entryCheckComplete .commit e.id s = commitPoint e s := by simp [entryCheckComplete, he, hstate]

theorem entryCheckComplete_commitInCancel (he : s.entry? e.id = some e) (hstate : e.state = .cancelling)
    (huncommitted : e.armedSet = none) (hhost : e.byHost = true) :
    entryCheckComplete .commit e.id s = commitPointInCancel e s := by
  simp [entryCheckComplete, he, hstate, Entry.committed, huncommitted, hhost]

theorem entryCheckComplete_cancel (he : s.entry? e.id = some e) (hstate : e.state = .cancelling) :
    entryCheckComplete .cancel e.id s = cancelPoint e s := by simp [entryCheckComplete, he, hstate]

/-- The first CANCEL's check point is the cancel point, which a HOST cancel alone reports (R145). -/
theorem cancelPoint_first {r : CancelReason} (hmarks : e.marks = some ⟨r, false⟩) (s : State) :
    cancelPoint e s =
      queueReports (if r = .host then [.actionCancelled e.id] else []) (putEntry { e with marks := some ⟨r, true⟩ } s) := by
  simp [cancelPoint, pointReached_marks hmarks, byHost_marks hmarks, hmarks]

/-- Settles O26: the report of the check point to its source, case by case. -/
theorem checkCompleteIsThePointOfTheEntry : Obligations.CheckCompleteIsThePointOfTheEntry := by
  intro s need out f hsends hfind t
  refine ⟨fun hkind hsource => ?_, fun e hsource he => ?_⟩
  · rw [exec_checkComplete, checkComplete_sends hsends hfind, if_pos hkind]
    simp only [reportCheckComplete, hsource]
    rfl
  · have het : (s.checked f).entry? e.id = some e := he
    have hexec (kind : FrameKind) (hkind : need.kind = kind) (hne : kind ≠ .sync) :
        exec .checkComplete s = .next (entryCheckComplete kind e.id (s.checked f)) := by
      rw [exec_checkComplete, checkComplete_entry hsends hfind hsource (hkind ▸ hne), hkind]
    refine ⟨fun hkind hstate => ?_, fun hkind hstate hmarks harmed => ?_, fun hkind hstate hmarks => ?_,
      fun hkind hstate hmarks => ?_⟩
    · rw [hexec _ hkind (by decide), entryCheckComplete_commit het hstate]
      rfl
    · rw [hexec _ hkind (by decide), entryCheckComplete_commitInCancel het hstate harmed (byHost_marks hmarks)]
      rfl
    · rw [hexec _ hkind (by decide), entryCheckComplete_cancel het hstate, cancelPoint_first hmarks]
      rfl
    · rw [hexec _ hkind (by decide), entryCheckComplete_cancel het hstate, cancelPoint_first hmarks]
      rfl

/-! ### The completed outcome -/

/-- The state behind ack cell 1 of an own frame, but for the outcome: the frame ended, its need gone, the run 0 (R33). -/
def State.sent (s : State) (need : Need) : State :=
  { endFrame s with
    engine := { s.engine with frame := none, run := 0, needs := s.engine.needs.filter fun n => n.age != need.age } }

theorem frameCompleted_sends (hsends : s.sends need out f) (hfind : s.line.finding = some .ownFrameDone)
    (hholds : s.holdsNeed need = true) : frameCompleted s = reportCompleted need f.ackSet true (s.sent need) := by
  simp only [frameCompleted, hfind, hsends.1, hsends.2, hholds]
  rfl

theorem markCompleted_last (h : s.capture.marks.length ≤ 1) : markCompleted s = { s with capture.marks := [] } := by
  have htail : s.capture.marks.tail = [] := by rw [← List.length_eq_zero_iff, List.length_tail]; omega
  simp [markCompleted, htail]

/-- A head mark with another behind it leaves, and the next one raises the MARK need (R154). -/
theorem markCompleted_next {m n : Mark} {rest : List Mark} (h : s.capture.marks = m :: n :: rest) :
    markCompleted s = raiseNeed .mark .markQueue { s with capture.marks := n :: rest } := by
  simp [markCompleted, h]

/-- Settles O27, source by source. -/
theorem completedFrameReachesItsSource : Obligations.CompletedFrameReachesItsSource := by
  intro s need out f hsends hfind hholds others t
  have hexec : exec .frameCompleted s = .next (reportCompleted need f.ackSet true t) := by
    rw [exec_frameCompleted, frameCompleted_sends hsends hfind hholds]
    rfl
  refine ⟨fun hsource => ?_, fun hsource hleaving => ?_, fun hsource hone => ?_, fun id hsource => ?_,
    fun m n rest hsource hmarks hpart => ?_⟩ <;> rw [hexec, reportCompleted, hsource]
  · rfl
  · have ht : t.ctl.state = .leaving := hleaving
    simp [ht]
  · exact congrArg Host.Outcome.next (markCompleted_last (s := t) hone)
  · rw [if_pos rfl, markCompleted_next (s := t) hmarks]
    refine congrArg Host.Outcome.next (raiseNeed_taken (s := State.mk ..) ?_)
    exact takesPart_keeps_needs hpart _

/-! ### The outcomes of a COMMIT in follow-up and of a CANCEL -/

/-- A failed outcome below the limit counts one failure, and does no more than the outcome itself (R39). -/
theorem failOwn_below {t : State} (hrun : s.engine.run < 15)
    (hreport : reportFailed need { s with engine.run := s.engine.run + 1 } = t) (ht : t.engine.run = s.engine.run + 1) :
    failOwn o need s = t := by
  have hcount : countFailure s = { s with engine.run := s.engine.run + 1 } := by
    rw [countFailure, Nat.min_eq_right (by omega)]
  rw [failOwn, hcount, hreport]
  exact faultAtLimit_below (by omega) o

/-- Settles O29: the outcome either raises the need again (`raiseFor_putEntry`) or ends the follow-up or the cancel (`endFollowUp_eq`,
`endCancel_eq`). -/
theorem completedCommitAndCancelFollowUp : Obligations.CompletedCommitAndCancelFollowUp := by
  refine ⟨fun s e acks he hstate hscope hrole => ?_, fun s e acks held he hstate => ?_,
    fun s o need out f e hsends hcells hsource he hlast hrun cut hcut hfind => ?_⟩
  · intro acked tries missing goesOn rest others ended
    have hacked : (e.withTry (acks &&& e.armedSet.getD 0)) = { e with tries := some tries, acked := some acked } := rfl
    have hmiss : Entry.unarmed { e with tries := some tries, acked := some acked } = missing := rfl
    rw [entryCompleted_commit he hstate hscope hrole, commitCompleted_eq, hacked, endFollowUp_eq, hmiss]
    refine ⟨fun hmissing htries hgo hpart => ?_, fun hmissing => ?_, fun hmissing hends => ?_⟩
    · rw [if_pos ⟨hmissing, htries, hgo⟩, raiseFor_putEntry _ _ hpart]
    · rw [if_neg fun ⟨hleft, _⟩ => hleft hmissing, if_pos hmissing]
    · rw [if_neg fun ⟨_, hfew, hon⟩ => hends.elim (Nat.not_le.2 hfew) fun hstop => hstop hon, if_neg hmissing]
  · intro acked tries missing rest others
    have hacked : e.withTry acks = { e with tries := some tries, acked := some acked } := rfl
    have hmiss : Entry.missing { e with tries := some tries, acked := some acked } = missing := rfl
    rw [entryCompleted_cancel he hstate, cancelCompleted_eq, hacked, endCancel_eq, hmiss]
    refine ⟨fun hdone => ?_, fun harmed hmissing htries hgo hpart => ?_, fun harmed hmissing hends => ?_⟩
    · rw [if_neg fun ⟨harmed, hleft, _⟩ => hdone.elim harmed hleft, if_pos hdone]
    · rw [if_pos ⟨harmed, hmissing, htries, hgo⟩, raiseFor_putEntry _ _ hpart]
    · rw [if_neg fun ⟨_, _, hfew, hopen⟩ => hends.elim (Nat.not_le.2 hfew) fun hfinal => by simp [hfinal] at hopen,
        if_neg (not_or.2 ⟨harmed, hmissing⟩)]
  · intro rest others armed unarmed missing t
    let counted : State := { t with engine.run := s.engine.run + 1 }
    have he' : counted.entry? e.id = some e := he
    have hfail {u : State} (hu : u.engine.run = s.engine.run + 1)
        (hreport : entryFailed need.kind e.id (s.holdsNeed need) counted = u) : exec (cut.2 o) s = .next u := by
      rw [exec_cut hsends.1 hcells hcut hfind, cutByLine_transmit hsends]
      refine congrArg Host.Outcome.next (failOwn_below (s := t) hrun ?_ hu)
      simp only [reportFailed, hsource]
      exact hreport
    refine ⟨fun hkind hstate hholds => hfail rfl ?_, fun hkind hstate => hfail rfl ?_⟩
    · rw [hkind, hholds, entryFailed_lastCommit he' hstate hlast, endFollowUp_eq]
      rfl
    · rw [hkind, entryFailed_lastCancel he' hstate hlast, endCancel_eq]
      rfl

end Sys2Proof.Machine
end

section
/-! PROOFS. How a deadline ends an owner's phase (O47). -/

namespace Sys2Proof.Machine

variable {s : State} {need : Need} {out : List Byte} {f : Frame} {e : Entry} {id : ActionId} {kinds : List FrameKind}

/-! ### The owner cut -/

theorem sendsFor_iff :
    sendsFor id kinds f = true ↔ ∃ need out, f.role = .transmit need out ∧ need.source = .entry id ∧ need.kind ∈ kinds := by
  cases hrole : f.role with
  | receive => simp [sendsFor, hrole]
  | transmit need out => simp [sendsFor, hrole]

theorem sending_iff :
    s.sending id kinds = true ↔ ∃ need out f, s.sends need out f ∧ need.source = .entry id ∧ need.kind ∈ kinds := by
  cases hframe : s.engine.frame with
  | none => simp [State.sending, State.sends, hframe]
  | some f =>
    simp only [State.sending, hframe, Option.map_some, Option.getD_some, sendsFor_iff]
    constructor
    · rintro ⟨need, out, hrole, hneed⟩
      exact ⟨need, out, f, ⟨hframe, hrole⟩, hneed⟩
    · rintro ⟨need, out, g, ⟨hg, hrole⟩, hneed⟩
      obtain rfl : f = g := Option.some.inj (hframe.symm.trans hg)
      exact ⟨need, out, hrole, hneed⟩

/-- The frame of the need is cut for the entry: it is one of the kinds, before its check point (R38). -/
def Frame.cutFor (id : ActionId) (kinds : List FrameKind) (need : Need) (f : Frame) : Prop :=
  need.source = .entry id ∧ need.kind ∈ kinds ∧ f.checkPoint = false

/-- An owner cut ends the frame and removes its need (R38). -/
theorem ownerCut_cuts (hsends : s.sends need out f) (hcut : f.cutFor id kinds need) :
    ownerCut id kinds s =
      { endFrame s with
        engine := { s.engine with frame := none, needs := s.engine.needs.filter fun n => n.age != need.age } } := by
  obtain ⟨hframe, hrole⟩ := hsends
  obtain ⟨hsource, hkind, hpoint⟩ := hcut
  have hours : sendsFor id kinds f = true := sendsFor_iff.2 ⟨need, out, hrole, hsource, hkind⟩
  simp only [ownerCut, hframe, hrole, hours, hpoint]
  rfl

/-- Every other frame runs on (R38). -/
theorem ownerCut_spares (h : ∀ need out f, s.sends need out f → ¬f.cutFor id kinds need) : ownerCut id kinds s = s := by
  unfold ownerCut
  split
  · rename_i f hframe
    split
    · rename_i need out hrole
      refine if_neg fun hcut => ?_
      simp only [Bool.and_eq_true, Bool.not_eq_true', sendsFor, hrole, beq_iff_eq, List.contains_iff_mem] at hcut
      obtain ⟨⟨hsource, hkind⟩, hpoint⟩ := hcut
      exact h need out f ⟨hframe, hrole⟩ ⟨hsource, hkind, hpoint⟩
    · rfl
  · rfl

/-- An owner cut changes neither the table nor the reports nor what they are stamped with, and leaves in flight what it does not cut. -/
theorem ownerCut_frame (id : ActionId) (kinds : List FrameKind) (s : State) :
    (ownerCut id kinds s).table = s.table ∧ (ownerCut id kinds s).reports = s.reports ∧ (ownerCut id kinds s).ctl = s.ctl
      ∧ (ownerCut id kinds s).now = s.now
      ∧ ∀ need out f, (ownerCut id kinds s).sends need out f → s.sends need out f ∧ ¬f.cutFor id kinds need := by
  by_cases h : ∃ need out f, s.sends need out f ∧ f.cutFor id kinds need
  · obtain ⟨need, out, f, hsends, hcut⟩ := h
    rw [ownerCut_cuts hsends hcut]
    exact ⟨rfl, rfl, rfl, rfl, fun _ _ _ hsends => absurd hsends.1 (by simp)⟩
  · rw [ownerCut_spares fun need out f hsends hcut => h ⟨need, out, f, hsends, hcut⟩]
    exact ⟨rfl, rfl, rfl, rfl, fun need out f hsends => ⟨hsends, fun hcut => h ⟨need, out, f, hsends, hcut⟩⟩⟩

/-! ### The answers to a deadline -/

theorem byHost_iff : e.byHost = true ↔ e.marks = some ⟨.host, false⟩ ∨ e.marks = some ⟨.host, true⟩ := by
  rcases hmarks : e.marks with _ | ⟨_ | _, _ | _⟩ <;> simp [Entry.byHost, hmarks]

/-- The kinds of its own frames that the deadline of an entry cuts (R136, R146). -/
def Entry.deadlineCuts (e : Entry) : List FrameKind :=
  if e.state ≠ .cancelling then [.propose, .commit, .cancel]
  else if e.armedSet = none ∧ (e.marks = some ⟨.host, false⟩ ∨ e.marks = some ⟨.host, true⟩) then [.cancel, .commit]
  else [.cancel]

theorem deadlineCuts_cancelling (hstate : e.state = .cancelling) :
    e.deadlineCuts = if !e.committed && e.byHost then [.cancel, .commit] else [.cancel] := by
  rw [Entry.deadlineCuts, if_neg (not_not.2 hstate)]
  congr 1
  simp only [Bool.and_eq_true, Bool.not_eq_true', ← Bool.not_eq_true, committed_iff, byHost_iff, ne_eq, not_not]

/-- The event of an entry whose deadline is due is the protocol's answer to it (R115). -/
theorem deadlineEvent_due (he : s.entry? e.id = some e) (hdue : s.deadlineDue e = true) :
    deadlineEvent e.id s = answerDeadline e s := by simp [deadlineEvent, he, hdue]

/-- The deadline of a proposal cuts its frame, removes it and reports the missing stations (R136). -/
theorem answerDeadline_proposal (h : e.state = .pending ∨ e.state = .committing) :
    answerDeadline e s =
      queueReport (.proposalFailed e.id e.missing .late) (removeEntry e.id (ownerCut e.id e.deadlineCuts s)) := by
  rcases h with h | h <;> simp [answerDeadline, h, proposalDeadline, Entry.deadlineCuts]

/-- The deadline of a cancel cuts its frame; the answer is taken on what that leaves (R146). -/
theorem answerDeadline_cancelling (hstate : e.state = .cancelling) :
    let t := ownerCut e.id e.deadlineCuts s
    answerDeadline e s =
      if e.pointReached then
        if t.sending e.id [.cancel] && t.atCheckPoint then putEntry { e with finalAwaited := true } t else endCancel e t
      else if e.committed then queueReport (.cancelLate e.id .deadline) (withdrawNeed (.entry e.id) (putEntry e.rearmed t))
      else queueReports (if e.byHost then [.actionCancelled e.id] else []) (removeEntry e.id t) := by
  simp only [answerDeadline, hstate, cancelDeadline, deadlineCuts_cancelling hstate]

/-- A committed cancel before its cancel point returns to ARMED (R146). -/
theorem answerDeadline_rearms {r : CancelReason} (hstate : e.state = .cancelling) (hmarks : e.marks = some ⟨r, false⟩)
    (hcommitted : e.armedSet ≠ none) :
    answerDeadline e s =
      queueReport (.cancelLate e.id .deadline)
        (withdrawNeed (.entry e.id) (putEntry e.rearmed (ownerCut e.id e.deadlineCuts s))) := by
  rw [answerDeadline_cancelling hstate, if_neg (by simp [pointReached_marks hmarks]), if_pos (committed_iff.2 hcommitted)]

/-- An uncommitted cancel before its cancel point ends, and a HOST cancel is reported (R146). -/
theorem answerDeadline_uncommitted {r : CancelReason} (hstate : e.state = .cancelling) (hmarks : e.marks = some ⟨r, false⟩)
    (huncommitted : e.armedSet = none) :
    answerDeadline e s =
      queueReports (if r = .host then [.actionCancelled e.id] else []) (removeEntry e.id (ownerCut e.id e.deadlineCuts s)) := by
  rw [answerDeadline_cancelling hstate, if_neg (by simp [pointReached_marks hmarks]),
    if_neg (by simp [committed_iff, huncommitted]), byHost_marks hmarks]
  simp only [beq_iff_eq]

/-- A CANCEL frame of the entry is in flight, past its check point. -/
def State.cancelPassed (s : State) (id : ActionId) : Prop :=
  ∃ need out f, s.sends need out f ∧ need.source = .entry id ∧ need.kind = .cancel ∧ f.checkPoint = true

theorem cancelPassed_iff : (s.sending id [.cancel] && s.atCheckPoint) = true ↔ s.cancelPassed id := by
  simp only [Bool.and_eq_true, sending_iff, List.mem_singleton, State.cancelPassed]
  have hpoint {need out f} (hsends : s.sends need out f) : s.atCheckPoint = f.checkPoint := by
    simp [State.atCheckPoint, hsends.1]
  constructor
  · rintro ⟨⟨need, out, f, hsends, hsource, hkind⟩, hp⟩
    exact ⟨need, out, f, hsends, hsource, hkind, hpoint hsends ▸ hp⟩
  · rintro ⟨need, out, f, hsends, hsource, hkind, hp⟩
    exact ⟨⟨need, out, f, hsends, hsource, hkind⟩, (hpoint hsends).trans hp⟩

/-- A cancel behind its cancel point, with no CANCEL past its check point in flight, ends (R146). -/
theorem answerDeadline_ends {r : CancelReason} (hstate : e.state = .cancelling) (hmarks : e.marks = some ⟨r, true⟩)
    (hflight : ¬s.cancelPassed e.id) : answerDeadline e s = endCancel e (ownerCut e.id e.deadlineCuts s) := by
  rw [answerDeadline_cancelling hstate, if_pos (pointReached_marks hmarks), if_neg]
  rw [cancelPassed_iff]
  rintro ⟨need, out, f, hsends, hpassed⟩
  obtain ⟨_, _, _, _, hleft⟩ := ownerCut_frame e.id e.deadlineCuts s
  exact hflight ⟨need, out, f, (hleft need out f hsends).1, hpassed⟩

/-- A cancel behind its cancel point waits for the outcome of the CANCEL in flight (R146). -/
theorem answerDeadline_awaits {r : CancelReason} (hstate : e.state = .cancelling) (hmarks : e.marks = some ⟨r, true⟩)
    (hflight : s.cancelPassed e.id) : answerDeadline e s = putEntry { e with finalAwaited := true } s := by
  have hcut : ownerCut e.id e.deadlineCuts s = s := by
    refine ownerCut_spares fun need' out' f' hsends' ⟨_, _, hbefore⟩ => ?_
    obtain ⟨need, out, f, hsends, _, _, hpassed⟩ := hflight
    obtain rfl : f = f' := Option.some.inj (hsends.1.symm.trans hsends'.1)
    simp [hpassed] at hbefore
  rw [answerDeadline_cancelling hstate, if_pos (pointReached_marks hmarks), hcut, if_pos (cancelPassed_iff.2 hflight)]

/-- The follow-up's deadline: the COMMIT in flight is the last one, or the follow-up ends (R135). -/
theorem followUpDeadline_due (he : s.entry? e.id = some e) (hfollow : inFollowUp s.engine.needs e = true)
    (hfinal : e.finalAwaited = false) (hreached : s.deadlineReached e = true) :
    followUpDeadline e.id s =
      if s.sending e.id [.commit] then putEntry { e with finalAwaited := true } s else endFollowUp e s := by
  simp [followUpDeadline, he, hfollow, hfinal, hreached]

/-- Settles O47: the answer to each phase's deadline, on what the owner cut leaves. -/
theorem ownerDeadlinesEndTheirPhase : Obligations.OwnerDeadlinesEndTheirPhase := by
  intro s e he hshared hfinal hreached others missing cutKinds isCut
  have hreached' : s.deadlineReached e = true := decide_eq_true hreached
  have hanswer (hstate : e.state ≠ .armed) : exec (.deadlineEvent e.id) s = .next (answerDeadline e s) := by
    have hdue : s.deadlineDue e = true := by simp [State.deadlineDue, hshared, hstate, hfinal, hreached']
    rw [exec_deadlineEvent, deadlineEvent_due he hdue]
  have hfollow (hrole : e.role = .owner) (hstate : e.state = .armed) (hneed : needHeld s.engine.needs .commit (.entry e.id) = true) :
      exec (.followUpDeadline e.id) s =
        .next (if s.sending e.id [.commit] then putEntry { e with finalAwaited := true } s else endFollowUp e s) := by
    have hup : inFollowUp s.engine.needs e = true := by simp [inFollowUp, Entry.ownShared, hshared, hrole, hstate, hneed]
    rw [exec_followUpDeadline, followUpDeadline_due he hup hfinal hreached']
  refine ⟨fun b hb => ?_, fun r need out f hstate hmarks hsends hsource hkind hpoint => ?_,
    fun hrole hstate hneed hother => ?_, fun need out f hrole hstate hneed hsends hsource hkind => ?_⟩
  · have hcut : ownerCut e.id e.deadlineCuts s = b := by
      rcases hb with ⟨rfl, hnone⟩ | ⟨need, out, f, hsends, hcut, rfl⟩
      · exact ownerCut_spares hnone
      · exact ownerCut_cuts hsends hcut
    obtain ⟨htable, hreports, hctl, hnow, _⟩ := hcut ▸ ownerCut_frame e.id e.deadlineCuts s
    intro needs removed
    have hremoved (k : ReportKind) : queueReport k (removeEntry e.id b) = removed (s.reported k s.ctl.state) := by
      simp only [removed, others, State.reported, ← htable, ← hreports, ← hctl, ← hnow]
      rfl
    refine ⟨fun hstate => ?_, fun r set hstate hmarks harmed => ?_, fun hstate hmarks harmed => ?_,
      fun hstate hmarks harmed => ?_, fun r hstate hmarks hbefore => ?_⟩
    · intro t
      have hgone : t.entry? e.id = none := entry?_dropped rfl
      refine ⟨?_, fun kind acks held => ⟨entryCompleted_gone hgone, entryFailed_gone hgone⟩⟩
      rw [hanswer (by rcases hstate with h | h <;> simp [h]), answerDeadline_proposal hstate, hcut, hremoved]
      rfl
    · rw [hanswer (by simp [hstate]), answerDeadline_rearms hstate hmarks (by simp [harmed]), hcut]
      simp only [others, State.reported, ← htable, ← hreports, ← hctl, ← hnow]
      rfl
    · rw [hanswer (by simp [hstate]), answerDeadline_uncommitted hstate hmarks harmed, hcut]
      exact congrArg Host.Outcome.next (hremoved (.actionCancelled e.id))
    · rw [hanswer (by simp [hstate]), answerDeadline_uncommitted hstate hmarks harmed, hcut]
      simp only [removed, others, ← htable, ← hreports]
      rfl
    · have hflight : ¬s.cancelPassed e.id := fun ⟨need, out, f, hsends, hsource, hkind, hpassed⟩ => by
        simp [hbefore need out f hsends hsource hkind] at hpassed
      rw [hanswer (by simp [hstate]), answerDeadline_ends hstate hmarks hflight, hcut, endCancel_eq]
      simp only [removed, others, State.reported, ← htable, ← hreports, ← hctl, ← hnow]
      rfl
  · rw [hanswer (by simp [hstate]), answerDeadline_awaits hstate hmarks ⟨need, out, f, hsends, hsource, hkind, hpoint⟩]
    rfl
  · intro unarmed armed
    have hidle : ¬s.sending e.id [.commit] = true := fun hsending => by
      obtain ⟨need, out, f, hsends, hsource, hkind⟩ := sending_iff.1 hsending
      exact hother need out f hsends hsource (List.mem_singleton.1 hkind)
    have hsame : { e with finalAwaited := false } = e := by rw [← hfinal]
    rw [hfollow hrole hstate hneed, if_neg hidle, endFollowUp_eq, hsame]
    rfl
  · rw [hfollow hrole hstate hneed, if_pos (sending_iff.2 ⟨need, out, f, hsends, hsource, List.mem_singleton.2 hkind⟩)]
    rfl

end Sys2Proof.Machine
end

section
/-! PROOFS. Received frames that no block takes, and duplicates (O37). -/

namespace Sys2Proof.Machine

variable {s : State} {f : Frame} {o : FaultOrder} {kind : FrameKind} {take hear : Station → List Byte → State → State × Bool}

/-- The acceptance rows are `acceptFrame` of their kind; in LISTEN a SYNC alone is heard (R30, R58). -/
theorem exec_acceptanceRow_hears {row : FrameKind × (FaultOrder → Instr)} (hrow : row ∈ acceptanceRows) (o : FaultOrder) (s : State) :
    ∃ take hear, exec (row.2 o) s = .next (acceptFrame row.1 o take hear s) ∧ (row.1 ≠ .sync → hear = takeNothing)
      ∧ (row.1 = .sync → take = takeSync ∧ hear = hearSync) := by
  simp only [acceptanceRows, List.mem_cons, List.not_mem_nil, or_false] at hrow
  rcases hrow with rfl | rfl | rfl | rfl | rfl | rfl
  · exact ⟨_, _, exec_syncAccepted o s, fun h => absurd rfl h, fun _ => ⟨rfl, rfl⟩⟩
  · exact ⟨_, _, exec_leaveAccepted o s, fun _ => rfl, fun h => by cases h⟩
  · exact ⟨_, _, exec_proposeAccepted o s, fun _ => rfl, fun h => by cases h⟩
  · exact ⟨_, _, exec_commitAccepted o s, fun _ => rfl, fun h => by cases h⟩
  · exact ⟨_, _, exec_cancelAccepted o s, fun _ => rfl, fun h => by cases h⟩
  · exact ⟨_, _, exec_markAccepted o s, fun _ => rfl, fun h => by cases h⟩

/-- A hand-over that neither the taking nor the hearing block answers leaves the state as it is. -/
theorem handOn_untaken {take hear : State → State × Bool} (htake : s.ctl.state.takesPart = true → take s = (s, false))
    (hhear : s.ctl.state = .listen → (hear s).1 = s) : handOn take hear s = s := by
  unfold handOn
  split
  · rename_i hpart
    simp [htake hpart]
  · split
    · exact hhear ‹_›
    · rfl

/-- A received frame that is no duplicate, and that fails its test or is handed to no block that answers it (R29, R30). -/
theorem acceptFrame_untaken (hfind : s.line.finding = some .acceptance) (hframe : s.engine.frame = some f) (hrole : f.role = .receive)
    (hkind : f.kind? = some kind) (hown : f.isDuplicate s.own = false)
    (huntaken : ∀ sender, f.passes kind = some sender →
      handOn (take sender f.payload) (hear sender f.payload) (atAcceptance s) = atAcceptance s) :
    acceptFrame kind o take hear s = s.afterAcceptance f false := by
  simp only [acceptFrame, hfind, hframe]
  rw [if_pos ⟨hrole, hkind⟩, if_neg (by simp [hown]), ← dropLatch_atAcceptance hframe]
  cases hpass : f.passes kind with
  | none => rfl
  | some sender => exact congrArg dropLatch (huntaken sender hpass)

/-- The own number in a received frame with a good check (R40, R107). -/
theorem acceptFrame_duplicate (hfind : s.line.finding = some .acceptance) (hframe : s.engine.frame = some f) (hrole : f.role = .receive)
    (hkind : f.kind? = some kind) (hdup : f.isDuplicate s.own = true) :
    acceptFrame kind o take hear s =
      enterFault .duplicate .duplicate o { s with engine.frame := some { f with checkPoint := true }, line.finding := none } := by
  simp only [acceptFrame, hfind, hframe]
  rw [if_pos ⟨hrole, hkind⟩, if_pos hdup, atAcceptance_eq hframe]

/-- Settles O37: every reason leaves the hand-over without an answer (`handOn_untaken`), and the duplicate test comes before it. -/
theorem framesThatNoBlockTakes : Obligations.FramesThatNoBlockTakes := by
  refine ⟨fun s o f row hrow hfind hframe hrole hkind hown hreason => ?_,
    fun s o f row hrow hfind hframe hrole hkind hcheck hsender => ?_⟩
  · obtain ⟨take, hear, hexec, hdeaf, hsync⟩ := exec_acceptanceRow_hears hrow o s
    rw [hexec]
    refine congrArg Host.Outcome.next (acceptFrame_untaken hfind hframe hrole hkind hown fun sender hpass => ?_)
    have hstate : (atAcceptance s).ctl.state = s.ctl.state := rfl
    rcases hreason with hfails | hleaving | ⟨hlisten, hother⟩ | ⟨his, hmalformed⟩
    · simp [hpass] at hfails
    · exact handOn_untaken (fun hpart => by simp [hstate, hleaving, StationState.takesPart] at hpart)
        fun hlisten => by simp [hstate, hleaving] at hlisten
    · exact handOn_untaken (fun hpart => by simp [hstate, hlisten, StationState.takesPart] at hpart)
        fun _ => by rw [hdeaf hother, takeNothing]
    · obtain ⟨rfl, rfl⟩ := hsync his
      exact handOn_untaken (fun _ => by simp only [takeSync, hmalformed]) fun _ => by simp only [hearSync, hmalformed]
  · obtain ⟨take, hear, hexec⟩ := exec_acceptanceRow hrow o s
    have hdup : f.isDuplicate s.own = true := by simp [Frame.isDuplicate, hcheck, hsender]
    rw [hexec, acceptFrame_duplicate hfind hframe hrole hkind hdup]

end Sys2Proof.Machine
end

section
/-! PROOFS. The payloads read back, the frames that a station builds, and their reception (O53). -/

namespace Sys2Proof.Machine

/-! ### Fields of a payload -/

/-- A field of one byte is that byte's value (R179). -/
theorem field_byte {offset : Nat} {p : List Byte} {b : Byte} (hplace : (p.drop offset).take 1 = [b]) : field offset 1 p = b.toNat := by
  rw [field, hplace]
  simp [beNat]

/-- A value reads back from the field that holds its bytes, where they have room for it (R179). -/
theorem field_value {offset size w : Nat} {p : List Byte} (v : BitVec w) (hplace : (p.drop offset).take size = beBytes size v.toNat)
    (hroom : 2 ^ w ≤ 256 ^ size) : BitVec.ofNat w (field offset size p) = v := by
  rw [field, hplace, beNat_beBytes, Nat.mod_eq_of_lt (v.isLt.trans_le hroom), BitVec.ofNat_toNat, BitVec.setWidth_eq]

theorem beBytes_two (v : StationSet) : beBytes 2 v.toNat = [v.extractLsb' 8 8, v.extractLsb' 0 8] := by
  have hhigh : BitVec.ofNat 8 (v.toNat / 256) = v.extractLsb' 8 8 := by
    apply BitVec.eq_of_toNat_eq
    simp [Nat.shiftRight_eq_div_pow]
  have hlow : BitVec.ofNat 8 v.toNat = v.extractLsb' 0 8 := by
    apply BitVec.eq_of_toNat_eq
    simp
  simp [beBytes, hhigh, hlow]

/-! ### SYNC -/

theorem senderState?_code (sender : SenderState) : senderState? sender.code = some sender := by cases sender <;> rfl

theorem senderCode_lt (sender : SenderState) : sender.code < 256 := by cases sender <;> decide

theorem decodeSync_syncPayload {round count : Nat} {sender : SenderState} {state : StationState} (members : StationSet) (time : Time)
    (hcode : state.code = sender.code) (hmin : 1 ≤ count) (hmax : count ≤ 16) :
    decodeSync (syncPayload round state count members time) = some ⟨BitVec.ofNat 16 round, sender, count, members, time⟩ := by
  have hsender : field 2 1 (syncPayload round state count members time) = sender.code := by
    have hfits := senderCode_lt sender
    rw [field_byte rfl, hcode, BitVec.toNat_ofNat]
    omega
  have hcount : field 3 1 (syncPayload round state count members time) = count := by
    rw [field_byte rfl, BitVec.toNat_ofNat]
    omega
  have hround : BitVec.ofNat 16 (field 0 2 (syncPayload round state count members time)) = BitVec.ofNat 16 round := by
    rw [field, show ((syncPayload round state count members time).drop 0).take 2 = beBytes 2 (round % 65536) from rfl, beNat_beBytes]
    apply BitVec.eq_of_toNat_eq
    simp
  have hmembers : BitVec.ofNat 16 (field 4 2 (syncPayload round state count members time)) = members :=
    field_value members rfl (by decide)
  have htime : BitVec.ofNat 64 (field 6 8 (syncPayload round state count members time)) = time := field_value time rfl (by decide)
  rw [decodeSync, hsender, senderState?_code]
  simp only [hcount, hround, hmembers, htime, hmin, hmax, and_self, if_true]

/-! ### MARK -/

/-- The flag byte of a mark: the edge code below the two flags (12.2). -/
theorem markFlags_read (edge : CaptureEdge) (unsynced holdover : Bool) :
    let flags : Byte := BitVec.ofNat 8 (edge.code + flagBit 2 unsynced + flagBit 3 holdover)
    captureEdge? (flags.toNat % 4) = some edge ∧ flags.toNat < 16 ∧ flags.getLsbD 2 = unsynced ∧ flags.getLsbD 3 = holdover := by
  cases edge <;> cases unsynced <;> cases holdover <;> decide

theorem decodeMark_markPayload (m : Mark) : decodeMark (markPayload m) = some m := by
  obtain ⟨hedge, hsmall, hunsynced, hholdover⟩ := markFlags_read m.edge m.unsynced m.holdover
  have hinput : field 0 1 (markPayload m) = m.input.val := by
    have hfits := m.input.isLt
    rw [field_byte rfl, BitVec.toNat_ofNat]
    omega
  have htime : BitVec.ofNat 64 (field 2 8 (markPayload m)) = m.time := field_value m.time rfl (by decide)
  have hflags : (markPayload m).getD 1 0 = BitVec.ofNat 8 (m.edge.code + flagBit 2 m.unsynced + flagBit 3 m.holdover) := rfl
  rw [decodeMark, hflags]
  simp only [hedge, hinput, m.input.isLt, hsmall, htime, hunsynced, hholdover, dif_pos, if_true]

/-! ### PROPOSE -/

theorem decodeProposePayload_proposePayload (e : Entry) :
    decodeProposePayload (proposePayload e) =
      ⟨e.output.val, e.edge.code, e.width.getD 0, e.due, e.period, e.count, e.mode.code⟩ := by
  have hedge : e.edge.code < 4 := by cases e.edge <;> decide
  have hmode : e.mode.code < 2 := by cases e.mode <;> decide
  have houtput := e.output.isLt
  have hsettings : field 1 1 (proposePayload e) = e.output.val + 4 * e.edge.code + 16 * e.mode.code := by
    rw [field_byte rfl, BitVec.toNat_ofNat]
    omega
  rw [decodeProposePayload, hsettings, field_value (w := 16) (e.width.getD 0) rfl (by decide), field_value e.due rfl (by decide),
    field_value e.period rfl (by decide), field_value e.count rfl (by decide)]
  congr 1 <;> omega

/-! ### The member set and the member count -/

theorem single_bit (n k : Station) : (single k).getLsbD n.val = decide (n = k) := by
  have hn := n.isLt
  simp only [single, BitVec.getLsbD_shiftLeft, BitVec.getLsbD_one, Fin.ext_iff]
  rw [Bool.eq_iff_iff]
  simp
  omega

theorem mem_allStations (n : Station) : n ∈ allStations := by revert n; decide

/-- The map of the stations of a list that hold member yes, on top of another map. -/
theorem memberMap_bits (peers : Vector Peer 16) (stations : List Station) (m : StationSet) (n : Station) :
    (stations.foldl (fun m k => if peers[k].member then m ||| single k else m) m).getLsbD n.val =
      (m.getLsbD n.val || (decide (n ∈ stations) && peers[n].member)) := by
  induction stations generalizing m with
  | nil => simp
  | cons k rest ih =>
    have hbit : (if peers[k].member then m ||| single k else m).getLsbD n.val =
        (m.getLsbD n.val || (decide (n = k) && peers[k].member)) := by
      split <;> simp only [*, BitVec.getLsbD_or, single_bit, Bool.and_true, Bool.and_false, Bool.or_false]
    rw [List.foldl_cons, ih, hbit, Bool.or_assoc]
    congr 1
    by_cases hnk : n = k
    · subst hnk
      cases peers[n].member <;> simp
    · simp [hnk]

theorem members_bit (s : State) (n : Station) : s.members.getLsbD n.val = (s.peer n).member := by
  rw [State.members, memberMap, memberMap_bits]
  simp [mem_allStations, State.peer]

/-- The member count is one more than the members (R64). -/
theorem memberCount_eq (s : State) : s.memberCount = 1 + allStations.countP fun n => (s.peer n).member := by
  have hhas : StationSet.has s.members = fun n => (s.peer n).member := funext fun n => members_bit s n
  rw [State.memberCount, setSize, hhas, ← List.countP_eq_length_filter, Nat.add_comm]

/-- A station that is not its own member counts sixteen at most. -/
theorem memberCount_le {s : State} (hown : (s.peer s.own).member = false) : s.memberCount ≤ 16 := by
  have hless : (allStations.countP fun n => (s.peer n).member) < allStations.length :=
    List.countP_lt_length_iff.2 ⟨s.own, mem_allStations s.own, by simp [hown]⟩
  have hsixteen : allStations.length = 16 := rfl
  rw [memberCount_eq]
  omega

/-! ### The cells that a station builds -/

theorem frameCells_payload (need : Need) (s : State) : (frameCells need s).drop 3 = needPayload need s := rfl

/-- What the needs of an entry carry (R131). -/
theorem needPayload_entry {s : State} {e : Entry} (he : s.entry? e.id = some e) (age : Nat) :
    needPayload ⟨.propose, .entry e.id, age⟩ s = proposePayload e
      ∧ needPayload ⟨.commit, .entry e.id, age⟩ s = commitPayload e.id.seq e.commitSet
      ∧ needPayload ⟨.cancel, .entry e.id, age⟩ s = [e.id.seq] := by
  simp [needPayload, he]

/-! ### Reception of a built frame -/

/-- The cells that a receiver takes one behind the other. -/
def Frame.addCells (f : Frame) (bytes : List Byte) : Frame := bytes.foldl (fun f b => f.addCell b 0) f

/-- The cells of a run of bytes, as `addCells` stores them. -/
def asCells (bytes : List Byte) : List (Byte × Nat) := bytes.map fun b => (b, 0)

theorem addCells_append (f : Frame) (a b : List Byte) : f.addCells (a ++ b) = (f.addCells a).addCells b := List.foldl_append ..

/-- The three header cells feed the check register (R19). -/
theorem addCells_header (f : Frame) (hf : f.cells = []) (a b c : Byte) :
    f.addCells [a, b, c] = { f with cells := asCells [a, b, c], crc := [a, b, c].foldl crcByte f.crc } := by
  simp [Frame.addCells, Frame.addCell, hf, asCells]

/-- The payload cells feed the check register (R19). -/
theorem addCells_payload {f : Frame} {payload : List Byte} (hheader : 3 ≤ f.cells.length)
    (hfits : f.cells.length + payload.length ≤ f.length + 3) :
    f.addCells payload = { f with cells := f.cells ++ asCells payload, crc := payload.foldl crcByte f.crc } := by
  induction payload generalizing f with
  | nil => simp [Frame.addCells, asCells]
  | cons b rest ih =>
    rw [List.length_cons] at hfits
    have hlength : (f.addCell b 0).length = f.length := addCell_length_long hheader
    have hadd : f.addCell b 0 = { f with cells := f.cells ++ [(b, 0)], crc := crcByte f.crc b } := by
      rw [Frame.addCell, if_pos (.inr (by omega))]
    have hstep : f.addCells (b :: rest) = (f.addCell b 0).addCells rest := rfl
    rw [hstep, ih (by simp [hadd]; omega) (by rw [hlength]; simp [hadd]; omega), hadd]
    simp [asCells]

/-- The check cells leave the check register as it is (R19). -/
theorem addCells_check {f : Frame} {check : List Byte} (hlong : f.length + 3 ≤ f.cells.length) :
    f.addCells check = { f with cells := f.cells ++ asCells check } := by
  induction check generalizing f with
  | nil => simp [Frame.addCells, asCells]
  | cons b rest ih =>
    have hlength : (f.addCell b 0).length = f.length := addCell_length_long (by omega)
    have hadd : f.addCell b 0 = { f with cells := f.cells ++ [(b, 0)] } := by rw [Frame.addCell, if_neg (by omega)]
    have hstep : f.addCells (b :: rest) = (f.addCell b 0).addCells rest := rfl
    rw [hstep, ih (by rw [hlength]; simp [hadd]; omega), hadd]
    simp [asCells]

theorem asCells_append (a b : List Byte) : asCells (a ++ b) = asCells a ++ asCells b := List.map_append

theorem byte_asCells {f : Frame} {bytes : List Byte} (h : f.cells = asCells bytes) (k : Nat) : f.byte k = (bytes[k]?).getD 0 := by
  simp [Frame.byte, h, asCells, Function.comp_def]

/-- The header cells of a frame of a kind (R17). -/
def headerCells (kind : FrameKind) (sender : Station) : List Byte :=
  [kind.code, BitVec.ofNat 8 sender.val, BitVec.ofNat 8 kind.length]

/-- The header, the payload and the check of the frame that a station builds (R17, R19). -/
def builtCells (kind : FrameKind) (sender : Station) (payload : List Byte) : List Byte :=
  let out := headerCells kind sender ++ payload
  out ++ [highByte (crc16 out), lowByte (crc16 out)]

theorem kindLength_toNat (kind : FrameKind) : (BitVec.ofNat 8 kind.length).toNat = kind.length := by cases kind <;> rfl

theorem frameKind?_code (kind : FrameKind) : frameKind? kind.code = some kind := by cases kind <;> decide

variable {kind : FrameKind} {sender : Station} {payload : List Byte} {f : Frame}

theorem length_builtCells (hcells : f.cells = asCells (builtCells kind sender payload)) : f.length = kind.length := by
  rw [Frame.length, byte_asCells hcells]
  exact kindLength_toNat kind

/-- A frame in reception that holds some cells and a check register. -/
def Frame.receiving (bytes : List Byte) (crc : BitVec 16) : Frame := { Frame.opened .receive with cells := asCells bytes, crc }

theorem receiving_cells (bytes : List Byte) (crc : BitVec 16) : (Frame.receiving bytes crc).cells = asCells bytes := rfl

theorem receiving_crc (bytes : List Byte) (crc : BitVec 16) : (Frame.receiving bytes crc).crc = crc := rfl

theorem receiving_cells_length (bytes : List Byte) (crc : BitVec 16) : (Frame.receiving bytes crc).cells.length = bytes.length := by
  simp [Frame.receiving, asCells]

theorem receiving_length (rest : List Byte) (crc : BitVec 16) :
    (Frame.receiving (headerCells kind sender ++ rest) crc).length = kind.length := kindLength_toNat kind

theorem receiving_header (kind : FrameKind) (sender : Station) :
    (Frame.opened .receive).addCells (headerCells kind sender) =
      .receiving (headerCells kind sender ++ []) ((headerCells kind sender).foldl crcByte crcInit) := addCells_header _ rfl _ _ _

/-- The receiver of a built frame holds its cells, and in its check register the value over the header and the payload (R19). -/
theorem addCells_built (hlen : payload.length = kind.length) :
    (Frame.opened .receive).addCells (builtCells kind sender payload) =
      .receiving (builtCells kind sender payload) (crc16 (headerCells kind sender ++ payload)) := by
  have hthree : (headerCells kind sender).length = 3 := rfl
  have hpayload : (Frame.opened .receive).addCells (headerCells kind sender ++ payload) =
      .receiving (headerCells kind sender ++ payload) (crc16 (headerCells kind sender ++ payload)) := by
    rw [addCells_append, receiving_header, addCells_payload]
    · simp [Frame.receiving, asCells_append, crc16, List.foldl_append]
    · rw [receiving_cells_length, List.append_nil, hthree]
    · rw [receiving_cells_length, receiving_length, List.append_nil, hthree, hlen, Nat.add_comm]
  rw [builtCells, addCells_append, hpayload, addCells_check]
  · simp [Frame.receiving, asCells_append]
  · rw [receiving_cells_length, receiving_length, List.length_append, hthree, hlen, Nat.add_comm]

/-- A received frame that holds the built cells and the check value over them passes the test of its kind (R29). -/
theorem passes_built (hlen : payload.length = kind.length) (hcells : f.cells = asCells (builtCells kind sender payload))
    (hcrc : f.crc = crc16 (headerCells kind sender ++ payload)) : f.passes kind = some sender := by
  have hlength := length_builtCells hcells
  have hout : (headerCells kind sender ++ payload).length = kind.length + 3 := by simp [headerCells, hlen]
  have hhigh : f.byte (kind.length + 3) = highByte f.crc := by
    rw [byte_asCells hcells, hcrc, builtCells, List.getElem?_append_right hout.le, hout, Nat.sub_self]
    rfl
  have hlow : f.byte (kind.length + 4) = lowByte f.crc := by
    rw [byte_asCells hcells, hcrc, builtCells, List.getElem?_append_right (by omega), hout,
      show kind.length + 4 - (kind.length + 3) = 1 by omega]
    rfl
  have hgood : f.checkGood = true := by simp [Frame.checkGood, hlength, hhigh, hlow]
  have hkind : f.kind? = some kind := by
    rw [Frame.kind?, if_neg (by simp [hcells, asCells, builtCells, headerCells]), byte_asCells hcells]
    exact frameKind?_code kind
  have hnumber : (f.byte 1).toNat = sender.val := by
    have hfits := sender.isLt
    rw [byte_asCells hcells]
    simp [builtCells, headerCells]
    omega
  have hsender : f.sender? = some sender := by simp [Frame.sender?, hnumber]
  simp [Frame.passes, hgood, hkind, hlength, hsender]

theorem payload_built (hlen : payload.length = kind.length) (hcells : f.cells = asCells (builtCells kind sender payload)) :
    f.payload = payload := by
  rw [Frame.payload, length_builtCells hcells, hcells, builtCells, headerCells, ← hlen]
  simp [asCells, Function.comp_def]

/-- The receiver of a built frame finds its kind's test passed, and reads its payload (R17, R19, R29). -/
theorem received_built (hlen : payload.length = kind.length) :
    let f := (Frame.opened .receive).addCells (builtCells kind sender payload)
    f.passes kind = some sender ∧ f.payload = payload ∧ f.cells.length = kind.length + 5 := by
  rw [addCells_built hlen]
  refine ⟨passes_built hlen (receiving_cells ..) (receiving_crc ..), payload_built hlen (receiving_cells ..), ?_⟩
  rw [receiving_cells_length]
  simp [builtCells, headerCells, hlen]

/-- Settles O53: the payloads read back field by field, and a built frame is received cell by cell (`addCells_built`). -/
theorem framesReadBackAtTheReceiver : Obligations.FramesReadBackAtTheReceiver := by
  refine ⟨⟨fun round sender state count members time hcode hmin hmax => ⟨decodeSync_syncPayload members time hcode hmin hmax, rfl⟩,
      fun m => ⟨decodeMark_markPayload m, rfl⟩, fun e => ⟨decodeProposePayload_proposePayload e, rfl, rfl⟩,
      fun seq set => congrArg (seq :: ·) (beBytes_two set)⟩,
    ⟨fun s need row hrow hkind => ?_, fun s age sender hcode hown => ⟨members_bit s, ?_⟩, fun s e age he => ?_,
      fun s m rest age hmarks => ?_, fun s age => rfl⟩, fun kind sender payload hlen => ?_⟩
  · have hheader : (frameCells need s).take 3 = [need.kind.code, BitVec.ofNat 8 s.own.val, BitVec.ofNat 8 need.kind.length] := rfl
    rw [hheader, hkind]
    simp only [List.mem_cons, List.not_mem_nil, or_false] at hrow
    rcases hrow with rfl | rfl | rfl | rfl | rfl | rfl <;> rfl
  · rw [← memberCount_eq]
    exact decodeSync_syncPayload s.members 0 hcode (Nat.le_add_left ..) (memberCount_le hown)
  · obtain ⟨hpropose, hcommit, hcancel⟩ := needPayload_entry he age
    intro payload set
    exact ⟨hpropose, hcommit.trans (congrArg (e.id.seq :: ·) (beBytes_two set)), hcancel⟩
  · rw [frameCells_payload]
    simp only [needPayload, hmarks, List.head?_cons, Option.map_some, Option.getD_some]
    exact decodeMark_markPayload m
  · exact received_built hlen

end Sys2Proof.Machine
end

section
/-! PROOFS. What each event leaves of the clock's terms and the configuration store, and with them every step (O55). A state whose trim, slew
term, fraction, store and straps are those of another meets `State.clockInRange` with it; the changes of these five stand first. A lemma
`f_clock` says that `f` leaves the clock in range. -/

namespace Sys2Proof.Machine

variable {s : State}

/-! ### Changes of the clock's terms -/

theorem clockInRange_slew {q : Int} (hq : -500000 ≤ q ∧ q ≤ 500000) (h : s.clockInRange) :
    State.clockInRange { s with base.slew := q } := by
  obtain ⟨htrim, _, hrest⟩ := h
  exact ⟨htrim, hq, hrest⟩

theorem clockInRange_trim {v : Int} (hv : -200000 ≤ v ∧ v ≤ 200000) (h : s.clockInRange) :
    State.clockInRange { s with base.trim := v } := by
  obtain ⟨_, hrest⟩ := h
  exact ⟨hv, hrest⟩

theorem clockInRange_store {c : ConfigRecord} (hc : c.valid s.straps.speed = true) (h : s.clockInRange) :
    State.clockInRange { s with port.store := c } := by
  obtain ⟨htrim, hslew, hfraction, _⟩ := h
  exact ⟨htrim, hslew, hfraction, hc⟩

theorem zeroSlew_clock (h : s.clockInRange) : (zeroSlew s).clockInRange := clockInRange_slew (by decide) h

/-- A clamped value lies within its limit (R43). -/
theorem clampTo_bounds (limit : Nat) (v : Int) : -(limit : Int) ≤ clampTo limit v ∧ clampTo limit v ≤ limit := by
  unfold clampTo
  omega

theorem requestSlew_clock (q : Int) (h : s.clockInRange) : (requestSlew q s).1.clockInRange := by
  unfold requestSlew
  split
  · exact clockInRange_slew (clampTo_bounds slewLimit q) h
  · exact h

theorem requestTrim_clock (v : Int) (h : s.clockInRange) : (requestTrim v s).1.clockInRange := by
  unfold requestTrim
  split
  · exact clockInRange_trim (clampTo_bounds trimLimit v) h
  · exact h

theorem requestStep_clock (st : TimeStep) (h : s.clockInRange) : (requestStep st s).clockInRange := by
  unfold requestStep
  split
  · exact zeroSlew_clock (s := { s with base.pendingStep := some st }) h
  · exact h

/-- The default record is valid whatever the straps show (R172, R174). -/
theorem default_valid (speed : SpeedClass) : ConfigRecord.default.valid speed = true := by
  cases speed <;> decide

theorem zero_inRange : ((-200000 : Int) ≤ 0 ∧ (0 : Int) ≤ 200000) ∧ ((-500000 : Int) ≤ 0 ∧ (0 : Int) ≤ 500000) ∧ 0 < 1000000000 := by
  decide

theorem powerOn_clock (p : StrapPins) (s : State) : (powerOn p s).clockInRange := by
  obtain ⟨htrim, hslew, hfraction⟩ := zero_inRange
  exact ⟨htrim, hslew, hfraction, default_valid _⟩

theorem valid_initialTrim {speed : SpeedClass} {c : ConfigRecord} (h : c.valid speed = true) :
    -200000 ≤ c.initialTrim ∧ c.initialTrim ≤ 200000 := by
  simp only [ConfigRecord.valid, Bool.and_eq_true, decide_eq_true_eq] at h
  exact h.1.1.2

/-- START takes the initial trim of the stored record, which is valid (R45, R95, R172). -/
theorem startStation_clock (initial : Time) (h : s.clockInRange) : (startStation initial s).clockInRange := by
  obtain ⟨_, _, _, hstore⟩ := h
  obtain ⟨_, hslew, hfraction⟩ := zero_inRange
  exact ⟨valid_initialTrim hstore, hslew, hfraction, hstore⟩

theorem goOff_clock (cause : MoveCause) (h : s.clockInRange) : (goOff cause s).clockInRange := zeroSlew_clock h

/-- The fraction is what is left below one ns, or stands still (R42). -/
theorem advance_fraction {b : TimeBase} (h : b.fraction < 1000000000) : b.advance.fraction < 1000000000 := by
  unfold TimeBase.advance
  simp only
  split
  · exact Nat.mod_lt _ (by decide)
  · exact h

theorem boundary_clock (h : s.clockInRange) : (boundary s).clockInRange := by
  obtain ⟨htrim, hslew, hfraction, hstore⟩ := h
  exact ⟨htrim, hslew, advance_fraction hfraction, hstore⟩

/-- An event repeated over a list leaves the clock in range, where each time does. -/
theorem foldl_clock {α : Type} {f : State → α → State} (hf : ∀ s a, s.clockInRange → (f s a).clockInRange) (xs : List α)
    (h : s.clockInRange) : (xs.foldl f s).clockInRange :=
  List.foldlRecOn xs f h fun s hs a _ => hf s a hs

/-! ### Needs and reports -/

theorem queueReport_clock (k : ReportKind) (h : s.clockInRange) : (queueReport k s).clockInRange := h

theorem queueReports_clock (ks : List ReportKind) (h : s.clockInRange) : (queueReports ks s).clockInRange :=
  foldl_clock (fun _ k h => queueReport_clock k h) ks h

theorem raiseNeed_clock (kind : FrameKind) (source : NeedSource) (h : s.clockInRange) : (raiseNeed kind source s).clockInRange := by
  obtain ⟨needs, age, he⟩ := raiseNeed_frame kind source s
  rw [he]
  exact h

theorem raiseFor_clock (kind : FrameKind) (e : Entry) (h : s.clockInRange) : (raiseFor kind e s).clockInRange := raiseNeed_clock _ _ h

theorem removeEntry_clock (id : ActionId) (h : s.clockInRange) : (removeEntry id s).clockInRange := h

theorem ownerCut_clock (id : ActionId) (kinds : List FrameKind) (h : s.clockInRange) : (ownerCut id kinds s).clockInRange := by
  unfold ownerCut
  split
  · split
    · split <;> exact h
    · exact h
  · exact h

/-! ### Firing and owner phases -/

theorem fire_clock (late : Bool) (e : Entry) (h : s.clockInRange) : (fire late e s).clockInRange := by
  have hreport {t : State} (h : t.clockInRange) : (fireReport late e t).clockInRange := by
    unfold fireReport
    split <;> exact h
  have hfired : (fireReport late e (markFired e (fireOutput late e s))).clockInRange := hreport h
  unfold fire fireEntry
  split <;> exact hfired

theorem actionDue_clock (h : s.clockInRange) : (actionDue s).clockInRange := by
  rcases actionDue_cases s with ⟨_, he⟩ | ⟨e, _, he⟩ <;> rw [he]
  · exact h
  · exact fire_clock _ e h

theorem pulseEnd_clock (c : Channel) (h : s.clockInRange) : (pulseEnd c s).clockInRange := by
  rcases pulseEnd_cases c s with he | ⟨_, he⟩ <;> rw [he] <;> exact h

theorem becomeCommitting_clock (e : Entry) (h : s.clockInRange) : (becomeCommitting e s).clockInRange := raiseFor_clock _ _ h

theorem proposeCompleted_clock (acks : StationSet) (e : Entry) (h : s.clockInRange) : (proposeCompleted acks e s).clockInRange := by
  unfold proposeCompleted proposeOutcome
  extract_lets e'
  split
  · exact becomeCommitting_clock _ h
  · split <;> exact raiseFor_clock _ _ h

theorem endFollowUp_clock (e : Entry) (h : s.clockInRange) : (endFollowUp e s).clockInRange := queueReports_clock _ h

theorem commitCompleted_clock (acks : StationSet) (e : Entry) (h : s.clockInRange) : (commitCompleted acks e s).clockInRange := by
  unfold commitCompleted
  extract_lets e'
  split
  · exact raiseFor_clock _ _ h
  · exact endFollowUp_clock _ h

theorem endCancel_clock (e : Entry) (h : s.clockInRange) : (endCancel e s).clockInRange := queueReports_clock _ h

theorem cancelCompleted_clock (acks : StationSet) (e : Entry) (h : s.clockInRange) : (cancelCompleted acks e s).clockInRange := by
  unfold cancelCompleted
  extract_lets e'
  split
  · exact raiseFor_clock _ _ h
  · exact endCancel_clock _ h

theorem entryCheckComplete_clock (kind : FrameKind) (id : ActionId) (h : s.clockInRange) :
    (entryCheckComplete kind id s).clockInRange := by
  have hpoint (e : Entry) : (cancelPoint e s).clockInRange := by
    unfold cancelPoint
    split
    · exact h
    · exact queueReports_clock _ h
  unfold entryCheckComplete
  split
  · exact h
  · split
    · exact h
    · split <;> exact h
    · exact hpoint _
    · exact h

theorem entryCompleted_clock (kind : FrameKind) (id : ActionId) (acks : StationSet) (held : Bool) (h : s.clockInRange) :
    (entryCompleted kind id acks held s).clockInRange := by
  unfold entryCompleted
  split
  · exact h
  · split
    · exact proposeCompleted_clock _ _ h
    · split
      · exact commitCompleted_clock _ _ h
      · exact h
    · exact cancelCompleted_clock _ _ h
    · exact h

theorem entryFailed_clock (kind : FrameKind) (id : ActionId) (held : Bool) (h : s.clockInRange) :
    (entryFailed kind id held s).clockInRange := by
  unfold entryFailed
  split
  · exact h
  · split
    · split
      · exact endFollowUp_clock _ h
      · exact h
    · split
      · exact endCancel_clock _ h
      · exact h
    · exact h

/-! ### Deadlines and left notices -/

theorem cancelDeadline_clock (e : Entry) (h : s.clockInRange) : (cancelDeadline e s).clockInRange := by
  unfold cancelDeadline
  extract_lets t
  have ht : t.clockInRange := ownerCut_clock _ _ h
  split
  · split
    · exact ht
    · exact endCancel_clock e ht
  · split
    · exact ht
    · exact queueReports_clock _ ht

theorem answerDeadline_clock (e : Entry) (h : s.clockInRange) : (answerDeadline e s).clockInRange := by
  have hproposal : (proposalDeadline e s).clockInRange := ownerCut_clock e.id [.propose, .commit, .cancel] h
  unfold answerDeadline
  split
  · exact hproposal
  · exact hproposal
  · exact h
  · exact cancelDeadline_clock e h
  · exact h

theorem deadlineEvent_clock (id : ActionId) (h : s.clockInRange) : (deadlineEvent id s).clockInRange := by
  rcases deadlineEvent_cases id s with he | ⟨e, _, _, he⟩ <;> rw [he]
  · exact h
  · exact answerDeadline_clock e h

theorem followUpDeadline_clock (id : ActionId) (h : s.clockInRange) : (followUpDeadline id s).clockInRange := by
  rcases followUpDeadline_cases id s with he | ⟨e, _, _, _, _, he⟩ <;> rw [he]
  · exact h
  · split
    · exact h
    · exact endFollowUp_clock e h

theorem leftNotice_clock (n : Station) (h : s.clockInRange) : (leftNotice n s).clockInRange := by
  have hprune (s : State) (e : Entry) (h : s.clockInRange) : (pruneEntry n e s).clockInRange := by
    rcases pruneEntry_cases n e s with ⟨_, _, he⟩ | ⟨_, he⟩ <;> rw [he]
    · exact becomeCommitting_clock _ h
    · exact h
  have hpruned : (pruneRequired n s).clockInRange := foldl_clock hprune _ h
  exact foldl_clock (fun _ (e : Entry) h => queueReport_clock (.heldDropped e.id) (removeEntry_clock e.id h)) _ hpruned

/-! ### The member side and the merge yield -/

theorem storeCopy_clock (e : Entry) (h : s.clockInRange) : (storeCopy e s).clockInRange := by
  rcases storeCopy_cases e s with ⟨_, he⟩ | ⟨_, he⟩ <;> rw [he] <;> exact h

theorem memberPropose_clock (sender : Station) (payload : List Byte) (h : s.clockInRange) :
    (memberPropose sender payload s).1.clockInRange := by
  unfold memberPropose
  extract_lets id
  split
  · exact h
  · split
    · split
      · split
        · exact h
        · split
          · exact storeCopy_clock _ h
          · exact h
      · split
        · exact storeCopy_clock _ h
        · exact h
    · exact h

theorem memberCommit_clock (own sender : Station) (payload : List Byte) (h : s.clockInRange) :
    (memberCommit own sender payload s).1.clockInRange := by
  unfold memberCommit
  extract_lets id set
  split
  · exact h
  · split
    · split <;> exact h
    all_goals exact h

theorem discardShared_clock (h : s.clockInRange) : (discardShared s).clockInRange :=
  queueReport_clock _ (foldl_clock (fun _ (e : Entry) h => removeEntry_clock e.id h) _ h)

/-! ### The Station Controller -/

theorem enterLeaving_clock (h : s.clockInRange) : (enterLeaving s).clockInRange := raiseNeed_clock _ _ (zeroSlew_clock h)

theorem enterFault_clock (cause : FaultCause) (move : MoveCause) (o : FaultOrder) (h : s.clockInRange) :
    (enterFault cause move o s).clockInRange := by
  have hfault {t : State} (h : t.clockInRange) : (intoFault cause t).clockInRange :=
    zeroSlew_clock (s := idleRounds (faultEntries t)) h
  rw [enterFault_eq]
  cases o with
  | stateFirst => exact queueReports_clock _ (queueReport_clock _ (hfault h))
  | protocolFirst => exact queueReport_clock _ (hfault (queueReports_clock _ h))

theorem listenTimeout_clock (h : s.clockInRange) : (listenTimeout s).clockInRange := by
  unfold listenTimeout
  split <;> exact h

theorem adopt_clock (offset : Int) (h : s.clockInRange) : (adopt offset s).clockInRange := requestStep_clock ⟨offset, .adopt⟩ h

/-! ### The Peer Table -/

theorem joinedNotice_clock (h : s.clockInRange) : (joinedNotice s).clockInRange := by
  unfold joinedNotice
  split <;> exact h

theorem takeSample_clock (n : Station) (c : SyncContent) (offset : Int) (h : s.clockInRange) :
    (takeSample n c offset s).clockInRange := by
  unfold takeSample
  extract_lets p
  split <;> exact h

theorem setMember_clock (n : Station) (member : Bool) (h : s.clockInRange) : (setMember n member s).clockInRange := by
  unfold setMember
  extract_lets p t
  have ht : t.clockInRange := h
  split
  · exact joinedNotice_clock (s := queueReport (.peerJoined n) t) ht
  · split
    · exact leftNotice_clock n ht
    · exact h

theorem syncReceived_clock (n : Station) (c : SyncContent) (offset : Int) (h : s.clockInRange) :
    (syncReceived n c offset s).clockInRange :=
  setMember_clock n _ (takeSample_clock (s := setPeer n ((s.peer n).heard n c) s) n c offset h)

theorem syncHeard_clock (n : Station) (c : SyncContent) (offset : Int) (h : s.clockInRange) :
    (syncHeard n c offset s).clockInRange := by
  unfold syncHeard
  extract_lets t
  have ht : t.clockInRange := h
  split
  · exact ht
  · exact adopt_clock offset ht
  · exact adopt_clock offset ht

theorem dropPeer_clock (n : Station) (cause : DropCause) (h : s.clockInRange) : (dropPeer n cause s).clockInRange := by
  unfold dropPeer
  extract_lets t
  have ht : t.clockInRange := h
  split
  · exact leftNotice_clock n ht
  · exact ht

theorem leaveReceived_clock (n : Station) (h : s.clockInRange) : (leaveReceived n s).clockInRange := by
  unfold leaveReceived
  split
  · exact dropPeer_clock (s := { s with rounds.samples := dropSample n s.rounds.samples }) n _ h
  · exact h

theorem judgeMember_clock (n : Station) (residual : Int) (h : s.clockInRange) : (judgeMember n residual s).clockInRange := by
  unfold judgeMember
  extract_lets p
  split
  · split
    · exact leftNotice_clock n (s := queueReport _ (setPeer n _ s)) h
    · exact h
  · exact h

theorem judgeSuspect_clock (n : Station) (residual : Int) (h : s.clockInRange) : (judgeSuspect n residual s).clockInRange := by
  unfold judgeSuspect
  extract_lets p member t
  have ht : t.clockInRange := h
  split
  · exact h
  · split
    · split
      · exact joinedNotice_clock ht
      · exact ht
    · exact h

theorem judgePeer_clock (c : Int) (n : Station) (h : s.clockInRange) : (judgePeer c n s).clockInRange := by
  have hmiss : (countMiss n s).clockInRange := by
    unfold countMiss
    extract_lets p
    split
    · exact dropPeer_clock n _ h
    · exact h
  unfold judgePeer
  extract_lets p t
  have ht : t.clockInRange := h
  split
  · exact h
  · exact hmiss
  · split
    · exact judgeMember_clock n _ ht
    · split
      · exact judgeSuspect_clock n _ ht
      · exact ht

/-! ### The Round Engine -/

theorem rounds_clock {r : RoundEngine} (h : s.clockInRange) : State.clockInRange { s with rounds := r } := h

theorem roundStart_clock (h : s.clockInRange) : (roundStart s).clockInRange := by
  rcases roundStart_cases s with he | ⟨_, he⟩ <;> rw [he]
  · exact h
  · exact raiseNeed_clock _ _ (rounds_clock h)

theorem closeStage1_clock (h : s.clockInRange) : (closeStage1 s).clockInRange := by
  unfold closeStage1
  extract_lets _ t
  split <;> exact h

/-- The one stage of a close that steers the clock: both requests are clamped (R82, R83). -/
theorem closeStage3_clock (c : Int) (n : Nat) (h : s.clockInRange) : (closeStage3 c n s).clockInRange := by
  unfold closeStage3
  extract_lets q a b
  have ha : a.1.clockInRange := requestSlew_clock q h
  have hb : b.1.clockInRange := by
    unfold b
    split
    · exact requestTrim_clock _ ha
    · exact ha
  split <;> exact hb

theorem yieldParts_clock (order : YieldOrder) (left : List Station) (h : s.clockInRange) : (yieldParts order left s).clockInRange := by
  have notices {t : State} (h : t.clockInRange) : (yieldNotices left t).clockInRange := foldl_clock (fun _ n h => leftNotice_clock n h) left h
  have move {t : State} (h : t.clockInRange) : (yieldMove t).clockInRange := h
  cases order with
  | noticesDiscardMove => exact move (discardShared_clock (notices h))
  | noticesMoveDiscard => exact discardShared_clock (move (notices h))
  | discardNoticesMove => exact move (notices (discardShared_clock h))
  | discardMoveNotices => exact notices (move (discardShared_clock h))
  | moveNoticesDiscard => exact discardShared_clock (notices (move h))
  | moveDiscardNotices => exact notices (discardShared_clock (move h))

theorem yieldTo_clock (k : Candidate) (o : CloseOrder) (h : s.clockInRange) : (yieldTo k o s).clockInRange := by
  unfold yieldTo
  extract_lets left t
  have ht : t.clockInRange := requestStep_clock ⟨k.sample, .merge⟩ h
  exact yieldParts_clock o.yield left (s := { t with rounds.joinRun := 0 }) ht

theorem closeStage6_clock (c : Int) (h : s.clockInRange) : (closeStage6 c s).clockInRange := by
  unfold closeStage6
  split
  · split
    · exact h
    · split <;> exact h
  · exact h

theorem closeStage7_clock (before : StationState) (h : s.clockInRange) : (closeStage7 before s).clockInRange := by
  unfold closeStage7
  split <;> exact h

theorem closeRound_clock (o : CloseOrder) (h : s.clockInRange) : (closeRound o s).clockInRange := by
  unfold closeRound
  extract_lets used c s1 _ s2 s3 s4
  have h2 : s2.clockInRange := closeStage1_clock h
  have h4 : s4.clockInRange := foldl_clock (fun _ n h => judgePeer_clock c n h) _ (closeStage3_clock c _ h2)
  have h567 : (closeStages567 c o s.ctl.state s4).clockInRange := by
    unfold closeStages567
    split
    · exact yieldTo_clock _ o h4
    · exact closeStage7_clock _ (closeStage6_clock c h4)
  exact h567

theorem roundClose_clock (o : CloseOrder) (h : s.clockInRange) : (roundClose o s).clockInRange := by
  rcases roundClose_cases o s with he | ⟨_, he⟩ <;> rw [he]
  · exact h
  · exact closeRound_clock o h

theorem tableNotice_clock (st : TimeStep) (h : s.clockInRange) : (tableNotice st s).clockInRange := by
  unfold tableNotice
  extract_lets t
  have ht : t.clockInRange := h
  split
  · have hanswered : (answerPassedDeadlines t).clockInRange := foldl_clock (fun _ e h => answerDeadline_clock e h) _ ht
    exact foldl_clock (fun _ e h => fire_clock true e h) _ hanswered
  · exact ht

theorem stepNotice_clock (steppedFirst : Bool) (h : s.clockInRange) : (stepNotice steppedFirst s).clockInRange := by
  have hrounds {t : State} (h : t.clockInRange) : (roundsNotice t).clockInRange := by
    unfold roundsNotice
    split <;> exact h
  unfold stepNotice
  split
  · rename_i st _
    extract_lets t stepped
    have ht : t.clockInRange := h
    have hstepped {u : State} (h : u.clockInRange) : (stepped u).clockInRange := h
    refine hrounds ?_
    split
    · exact tableNotice_clock st (hstepped ht)
    · exact hstepped (tableNotice_clock st ht)
  · exact h

/-! ### The Capture Unit -/

theorem captureEdge_clock (h : s.clockInRange) : (captureEdge s).clockInRange := by
  rcases captureEdge_cases s with he | ⟨i, e, _, he⟩ <;> rw [he]
  · exact h
  · split
    · unfold recordEdge
      extract_lets st placed t
      split
      · unfold joinMarks
        extract_lets _ u
        have hu : u.clockInRange := h
        split
        · exact raiseNeed_clock _ _ hu
        · exact hu
      · exact h
    · exact h

theorem memberMark_clock (sender : Station) (payload : List Byte) (h : s.clockInRange) :
    (memberMark sender payload s).1.clockInRange := by
  unfold memberMark
  split <;> exact h

theorem markCompleted_clock (h : s.clockInRange) : (markCompleted s).clockInRange := by
  unfold markCompleted
  extract_lets _ t
  have ht : t.clockInRange := h
  split
  · exact ht
  · exact raiseNeed_clock _ _ ht

/-! ### The Frame Engine -/

theorem latchFrameStart_clock (h : s.clockInRange) : (latchFrameStart s).clockInRange := by
  unfold latchFrameStart
  split <;> exact h

theorem driveNow_clock (h : s.clockInRange) : (driveNow s).clockInRange := by
  unfold driveNow
  split
  · split <;> exact h
  · exact h

theorem access_clock (h : s.clockInRange) : (access s).clockInRange := by
  rcases access_cases s with he | ⟨need, _, _, he⟩ <;> rw [he]
  · exact h
  · have hdriven : (openTransmit need (driveNow s.beginCell)).clockInRange := driveNow_clock (s := s.beginCell) h
    exact latchFrameStart_clock hdriven

theorem frameStart_clock (h : s.clockInRange) : (frameStart s).clockInRange := by
  have ht : (latchFrameStart s.beginCell).clockInRange := latchFrameStart_clock (s := s.beginCell) h
  unfold frameStart
  split
  · unfold takeFrameStart
    split
    · exact ht
    · exact ht
    · exact ht
    all_goals split <;> exact ht
  · exact h

theorem leaveFailed_clock (h : s.clockInRange) : (leaveFailed s).clockInRange := by
  unfold leaveFailed
  split
  · exact goOff_clock _ h
  · exact h

theorem reportFailed_clock (need : Need) (h : s.clockInRange) : (reportFailed need s).clockInRange := by
  unfold reportFailed
  split
  · exact h
  · exact h
  · exact entryFailed_clock _ _ _ h
  · split
    · exact leaveFailed_clock h
    · exact h

theorem reportCompleted_clock (need : Need) (acks : StationSet) (held : Bool) (h : s.clockInRange) :
    (reportCompleted need acks held s).clockInRange := by
  unfold reportCompleted
  split
  · split <;> exact h
  · split
    · exact markCompleted_clock h
    · exact h
  · exact entryCompleted_clock _ _ _ _ h
  · split
    · exact goOff_clock _ h
    · exact h

theorem checkComplete_clock (h : s.clockInRange) : (checkComplete s).clockInRange := by
  have hreport (need : Need) {t : State} (h : t.clockInRange) : (reportCheckComplete need t).clockInRange := by
    unfold reportCheckComplete
    split
    · exact entryCheckComplete_clock _ _ h
    all_goals exact h
  unfold checkComplete
  split
  · extract_lets t
    refine hreport _ ?_
    split <;> exact h
  · exact h

theorem frameCompleted_clock (h : s.clockInRange) : (frameCompleted s).clockInRange := by
  unfold frameCompleted
  split
  · split
    · extract_lets t
      have ht : State.clockInRange { t with engine.run := 0 } := h
      exact reportCompleted_clock _ _ _ ht
    · exact h
  · exact h

theorem faultAtLimit_clock (o : FaultOrder) (h : s.clockInRange) : (faultAtLimit o s).clockInRange := by
  unfold faultAtLimit
  split
  · exact enterFault_clock _ _ o h
  · exact h

theorem failOwn_clock (o : FaultOrder) (need : Need) (h : s.clockInRange) : (failOwn o need s).clockInRange :=
  faultAtLimit_clock o (reportFailed_clock need (s := countFailure s) h)

theorem cutByLine_clock (o : FaultOrder) (h : s.clockInRange) : (cutByLine o s).clockInRange := by
  have hend : (endFrame s).clockInRange := h
  unfold cutByLine
  split
  · exact failOwn_clock o _ hend
  · exact hend
  · exact hend

theorem startBitRecessive_clock (o : FaultOrder) (driven : Bool) (h : s.clockInRange) :
    (startBitRecessive o driven s).clockInRange := by
  unfold startBitRecessive
  split
  · exact h
  · split
    · extract_lets _ _ t
      have ht : t.clockInRange := h
      split
      · split
        · exact failOwn_clock o _ ht
        · exact ht
      · exact ht
    · exact cutByLine_clock o h

theorem falseStart_clock (o : FaultOrder) (h : s.clockInRange) : (falseStart o s).clockInRange := by
  unfold falseStart
  split
  · exact startBitRecessive_clock o _ h
  · exact h

theorem stopError_clock (o : FaultOrder) (h : s.clockInRange) : (stopError o s).clockInRange := by
  unfold stopError
  split
  · exact cutByLine_clock o h
  · exact h

theorem gapExpiry_clock (o : FaultOrder) (h : s.clockInRange) : (gapExpiry o s).clockInRange := by
  unfold gapExpiry
  split
  · exact cutByLine_clock o h
  · exact h

theorem lineQuiet_clock (h : s.clockInRange) : (lineQuiet s).clockInRange := by
  unfold lineQuiet
  split <;> exact h

theorem lineStuck_clock (o : FaultOrder) (h : s.clockInRange) : (lineStuck o s).clockInRange := by
  unfold lineStuck
  split
  · exact cutByLine_clock o (s := releaseDriver { s with line.condition := .stuck }) h
  · exact h

theorem arbitrationLost_clock (h : s.clockInRange) : (arbitrationLost s).clockInRange := by
  unfold arbitrationLost
  split <;> exact h

theorem collision_clock (o : FaultOrder) (h : s.clockInRange) : (collision o s).clockInRange := by
  unfold collision
  split
  · exact failOwn_clock o _ (s := giveUpSending s) h
  · exact h

theorem deadBit_clock (o : FaultOrder) (h : s.clockInRange) : (deadBit o s).clockInRange := by
  unfold deadBit
  split
  · exact failOwn_clock o _ (s := endFrame (releaseOrder s)) h
  · exact faultAtLimit_clock o (s := countFailure (clearFinding (releaseOrder s))) h
  · exact h

theorem driverFailure_clock (o : FaultOrder) (h : s.clockInRange) : (driverFailure o s).clockInRange := by
  unfold driverFailure
  split
  · exact deadBit_clock o h
  · exact startBitRecessive_clock o _ h
  · exact h

theorem receivedFrameEnd_clock (h : s.clockInRange) : (receivedFrameEnd s).clockInRange := by
  unfold receivedFrameEnd
  split <;> exact h

theorem lengthAbove24_clock (h : s.clockInRange) : (lengthAbove24 s).clockInRange := by
  unfold lengthAbove24
  split <;> exact h

/-! ### Acceptance -/

theorem handOn_clock {take hear : State → State × Bool} (htake : s.clockInRange → (take s).1.clockInRange)
    (hhear : s.clockInRange → (hear s).1.clockInRange) (h : s.clockInRange) : (handOn take hear s).clockInRange := by
  have hr : (take s).1.clockInRange := htake h
  unfold handOn
  split
  · extract_lets r
    split <;> exact hr
  · split
    · exact hhear h
    · exact h

theorem acceptFrame_clock (kind : FrameKind) (o : FaultOrder) {take hear : Station → List Byte → State → State × Bool}
    (htake : ∀ n payload s, s.clockInRange → (take n payload s).1.clockInRange)
    (hhear : ∀ n payload s, s.clockInRange → (hear n payload s).1.clockInRange) (h : s.clockInRange) :
    (acceptFrame kind o take hear s).clockInRange := by
  have hat : (atAcceptance s).clockInRange := h
  unfold acceptFrame
  split
  · split
    · split
      · exact enterFault_clock _ _ o hat
      · split
        · exact handOn_clock (htake _ _ _) (hhear _ _ _) hat
        · exact hat
    · exact h
  · exact h

theorem acceptUnknown_clock (o : FaultOrder) (h : s.clockInRange) : (acceptUnknown o s).clockInRange := by
  have hat : (atAcceptance s).clockInRange := h
  unfold acceptUnknown
  split
  · split
    · split
      · exact enterFault_clock _ _ o hat
      · exact hat
    · exact h
  · exact h

theorem takeNothing_clock (n : Station) (payload : List Byte) (s : State) (h : s.clockInRange) :
    (takeNothing n payload s).1.clockInRange := h

theorem syncAccepted_clock (o : FaultOrder) (h : s.clockInRange) : (syncAccepted o s).clockInRange := by
  refine acceptFrame_clock .sync o (fun n payload s h => ?_) (fun n payload s h => ?_) h
  · unfold takeSync
    split
    · exact syncReceived_clock n _ _ h
    · exact h
  · unfold hearSync
    split
    · exact syncHeard_clock n _ _ h
    · exact h

theorem leaveAccepted_clock (o : FaultOrder) (h : s.clockInRange) : (leaveAccepted o s).clockInRange :=
  acceptFrame_clock .leave o (fun n _ _ => leaveReceived_clock n) takeNothing_clock h

theorem proposeAccepted_clock (o : FaultOrder) (h : s.clockInRange) : (proposeAccepted o s).clockInRange :=
  acceptFrame_clock .propose o (fun n payload _ => memberPropose_clock n payload) takeNothing_clock h

theorem commitAccepted_clock (o : FaultOrder) (h : s.clockInRange) : (commitAccepted o s).clockInRange :=
  acceptFrame_clock .commit o (fun n payload s => memberCommit_clock s.own n payload) takeNothing_clock h

theorem cancelAccepted_clock (o : FaultOrder) (h : s.clockInRange) : (cancelAccepted o s).clockInRange :=
  acceptFrame_clock .cancel o (fun _ _ _ h => h) takeNothing_clock h

theorem markAccepted_clock (o : FaultOrder) (h : s.clockInRange) : (markAccepted o s).clockInRange :=
  acceptFrame_clock .mark o (fun n payload _ => memberMark_clock n payload) takeNothing_clock h

/-! ### The commands of the host -/

theorem badCommand_clock (h : s.clockInRange) : (badCommand s).clockInRange := by
  unfold badCommand
  split
  · split <;> exact h
  · exact h

theorem takeCommand_clock (code : Byte) (n : Nat) {owner : List Byte → State → State}
    (howner : ∀ args s, s.clockInRange → (owner args s).clockInRange) (h : s.clockInRange) :
    (takeCommand code n owner s).clockInRange := by
  rcases takeCommand_cases code n owner s with ⟨args, he⟩ | he | he <;> rw [he]
  · exact howner args (clearEnded s) h
  · exact h
  · exact h

/-- A record is stored where it is valid for the sampled class (R173). -/
theorem ownConfigure_clock (a : List Byte) (h : s.clockInRange) : (ownConfigure a s).clockInRange := by
  unfold ownConfigure
  split
  · split
    · split
      · rename_i hvalid
        exact clockInRange_store (s := s) hvalid h
      · exact h
    · exact h
  · exact h

theorem ownStart_clock (a : List Byte) (h : s.clockInRange) : (ownStart a s).clockInRange := by
  unfold ownStart
  split
  · exact h
  · split
    · exact h
    · exact startStation_clock _ h

theorem ownStop_clock (a : List Byte) (h : s.clockInRange) : (ownStop a s).clockInRange := by
  unfold ownStop
  split
  · exact h
  · exact goOff_clock .hostStop h

theorem ownLeave_clock (a : List Byte) (h : s.clockInRange) : (ownLeave a s).clockInRange := by
  unfold ownLeave
  split
  · exact enterLeaving_clock h
  · exact h

theorem ownReadPeer_clock (a : List Byte) (h : s.clockInRange) : (ownReadPeer a s).clockInRange := by
  unfold ownReadPeer
  split <;> exact h

theorem ownReadAction_clock (a : List Byte) (h : s.clockInRange) : (ownReadAction a s).clockInRange := by
  unfold ownReadAction
  split
  · split <;> exact h
  · exact h

theorem ownSchedule_clock (a : List Byte) (h : s.clockInRange) : (ownSchedule a s).clockInRange := by
  unfold ownSchedule
  split
  · exact h
  · split
    · exact h
    · split
      · exact h
      · split
        · exact h
        · split <;> exact h

theorem ownPropose_clock (a : List Byte) (h : s.clockInRange) : (ownPropose a s).clockInRange := by
  unfold ownPropose
  split
  · exact h
  · split
    · exact h
    · split
      · exact h
      · split
        · exact h
        · exact raiseFor_clock _ _ (s := putEntry _ (drawSeq s)) h

theorem cancelTaken_clock (e : Entry) (h : s.clockInRange) : (cancelTaken e s).clockInRange := by
  have huncommitted : (cancelUncommitted e s).clockInRange := raiseFor_clock _ _ h
  have harmed : (cancelArmed e s).clockInRange := by
    unfold cancelArmed
    extract_lets t
    have ht : t.clockInRange := by
      unfold t
      split
      · exact endFollowUp_clock e h
      · exact h
    exact raiseFor_clock _ _ ht
  unfold cancelTaken
  split
  · exact h
  · split
    · exact huncommitted
    · exact huncommitted
    · exact harmed
    · exact h
    · exact h

theorem ownCancel_clock (a : List Byte) (h : s.clockInRange) : (ownCancel a s).clockInRange := by
  unfold ownCancel
  split
  · exact h
  · split
    · exact h
    · split
      · exact h
      · split
        · exact h
        · split
          · exact h
          · exact cancelTaken_clock _ h

theorem ownTakeReport_clock (a : List Byte) (h : s.clockInRange) : (ownTakeReport a s).clockInRange := by
  unfold ownTakeReport
  split <;> exact h

theorem ownTakeCapture_clock (a : List Byte) (h : s.clockInRange) : (ownTakeCapture a s).clockInRange := by
  unfold ownTakeCapture
  split <;> exact h

/-- Each outcome of a judgement leaves the clock in range. -/
theorem hostCommands_clock : ∀ f ∈ hostCommands, ∀ s : State, s.clockInRange → (f s).clockInRange := by
  simp only [hostCommands, List.forall_mem_cons]
  exact ⟨fun _ => badCommand_clock,
    fun _ => takeCommand_clock _ _ fun _ _ h => h,
    fun _ => takeCommand_clock _ _ fun a _ => ownConfigure_clock a,
    fun _ => takeCommand_clock _ _ fun a _ => ownStart_clock a,
    fun _ => takeCommand_clock _ _ fun a _ => ownStop_clock a,
    fun _ => takeCommand_clock _ _ fun a _ => ownLeave_clock a,
    fun _ => takeCommand_clock _ _ fun _ _ h => h,
    fun _ => takeCommand_clock _ _ fun _ _ h => h,
    fun _ => takeCommand_clock _ _ fun a _ => ownReadPeer_clock a,
    fun _ => takeCommand_clock _ _ fun a _ => ownReadAction_clock a,
    fun _ => takeCommand_clock _ _ fun a _ => ownPropose_clock a,
    fun _ => takeCommand_clock _ _ fun a _ => ownSchedule_clock a,
    fun _ => takeCommand_clock _ _ fun a _ => ownCancel_clock a,
    fun _ => takeCommand_clock _ _ fun a _ => ownTakeReport_clock a,
    fun _ => takeCommand_clock _ _ fun a _ => ownTakeCapture_clock a,
    List.forall_mem_nil _⟩

theorem takeTransaction_clock (h : s.clockInRange) : (takeTransaction s).clockInRange :=
  List.foldlRecOn hostCommands _ h fun s hs f hf => hostCommands_clock f hf s hs

/-! ### The boundary -/

theorem settleFinding_clock (h : s.clockInRange) : (settleFinding s).clockInRange := by
  unfold settleFinding
  split
  · exact h
  · exact frameStart_clock h
  · exact falseStart_clock _ h
  · exact arbitrationLost_clock h
  · exact collision_clock _ h
  · exact driverFailure_clock _ h
  · exact stopError_clock _ h
  · exact gapExpiry_clock _ h
  · exact checkComplete_clock h
  · exact frameCompleted_clock h
  · exact receivedFrameEnd_clock h
  · exact lengthAbove24_clock h
  · split
    · exact syncAccepted_clock _ h
    · exact leaveAccepted_clock _ h
    · exact proposeAccepted_clock _ h
    · exact commitAccepted_clock _ h
    · exact cancelAccepted_clock _ h
    · exact markAccepted_clock _ h
    · exact acceptUnknown_clock _ h

theorem settleFirings_clock (n : Nat) (h : s.clockInRange) : (settleFirings n s).clockInRange := by
  induction n generalizing s with
  | zero => exact h
  | succ n ih => exact ih (actionDue_clock h)

/-- The events of a period that are still outstanding at its end, one behind the other. -/
theorem settle_clock (h : s.clockInRange) : (settle s).clockInRange := by
  have hline := lineQuiet_clock (lineStuck_clock .stateFirst (settleFinding_clock (stepNotice_clock true h)))
  have hrounds := roundClose_clock ⟨[], .noticesDiscardMove⟩ (roundStart_clock (listenTimeout_clock hline))
  have hdeadlines : (settleDeadlines _).clockInRange :=
    foldl_clock (fun _ id h => followUpDeadline_clock id h) _ (foldl_clock (fun _ id h => deadlineEvent_clock id h) _ hrounds)
  have hactions : (settleActions _).clockInRange :=
    settleFirings_clock _ (foldl_clock (fun _ c h => pulseEnd_clock c h) allChannels hdeadlines)
  have hcaptures : (settleCaptures _).clockInRange :=
    captureEdge_clock (captureEdge_clock (captureEdge_clock (captureEdge_clock hactions)))
  exact access_clock (takeTransaction_clock hcaptures)

theorem edge_result_store (p : HostPort) (e : SpiEdge) : (p.edge e).result = p.result ∧ (p.edge e).store = p.store := by
  cases e with
  | csFall => cases ht : p.transaction <;> simp [HostPort.edge, ht]
  | sckRise mosi => exact ⟨rfl, rfl⟩
  | sckFall => cases ht : p.transaction <;> simp [HostPort.edge, ht]
  | csRise => exact ⟨rfl, rfl⟩

/-- The edges of a period leave the result and the store (R168). -/
theorem edges_result_store (edges : List SpiEdge) (p : HostPort) :
    (edges.foldl HostPort.edge p).result = p.result ∧ (edges.foldl HostPort.edge p).store = p.store := by
  induction edges generalizing p with
  | nil => exact ⟨rfl, rfl⟩
  | cons e rest ih =>
    obtain ⟨hresult, hstore⟩ := ih (p.edge e)
    obtain ⟨heresult, hestore⟩ := edge_result_store p e
    exact ⟨hresult.trans heresult, hstore.trans hestore⟩

theorem readPort_result_store (s : State) :
    (readPort s).port.result = s.port.result ∧ (readPort s).port.store = s.port.store := by
  unfold readPort
  split
  · exact ⟨rfl, rfl⟩
  · exact edges_result_store s.pins.spi { s.port with ended := none }

/-- The states differ in the line, the frame in flight and the latch alone. -/
def State.sameButLine (s t : State) : Prop :=
  ∃ line frame latch, t = { s with line := line, engine.frame := frame, base.latch := latch }

theorem sameButLine_trans {t u : State} (h : s.sameButLine t) (h' : t.sameButLine u) : s.sameButLine u := by
  obtain ⟨_, _, _, rfl⟩ := h
  obtain ⟨_, _, _, rfl⟩ := h'
  exact ⟨_, _, _, rfl⟩

theorem sameButLine_refl (s : State) : s.sameButLine s := ⟨_, _, _, rfl⟩

theorem deliverCell_sameButLine (s : State) : s.sameButLine (deliverCell s) := by
  unfold deliverCell
  extract_lets b
  split
  · exact ⟨_, _, _, rfl⟩
  · extract_lets k g found t _ t'
    have ht : s.sameButLine t := by
      unfold t
      split <;> exact ⟨_, _, _, rfl⟩
    refine sameButLine_trans ht ?_
    split <;> exact ⟨_, _, _, rfl⟩

theorem readBack_sameButLine (pos : Nat) (s : State) : s.sameButLine (readBack pos s) := by
  unfold readBack
  split
  · split
    · extract_lets driven k
      split
      · extract_lets n t _
        split <;> exact ⟨_, _, _, rfl⟩
      · split <;> exact ⟨_, _, _, rfl⟩
    · exact sameButLine_refl s
  · exact sameButLine_refl s

theorem sampleBit_sameButLine (i : Nat) (s : State) : s.sameButLine (sampleBit i s) := by
  unfold sampleBit
  split
  · split <;> exact ⟨_, _, _, rfl⟩
  · split
    · exact sameButLine_trans ⟨_, _, _, rfl⟩ (readBack_sameButLine ..)
    · split
      · exact deliverCell_sameButLine s
      · exact ⟨_, _, _, rfl⟩

theorem fillRefTime_sameButLine (s : State) : s.sameButLine (fillRefTime s) := by
  unfold fillRefTime
  split
  · split
    · split <;> exact ⟨_, _, _, rfl⟩
    · exact sameButLine_refl s
  · exact sameButLine_refl s

theorem readGap_sameButLine (started : Bool) (s : State) : s.sameButLine (readGap started s) := by
  unfold readGap
  split
  · exact sameButLine_trans ⟨_, _, _, rfl⟩ (fillRefTime_sameButLine _)
  · split <;> exact ⟨_, _, _, rfl⟩

theorem readCell_sameButLine (s : State) : s.sameButLine (readCell s) := by
  unfold readCell
  split
  · split
    · exact sampleBit_sameButLine _ s
    · exact sameButLine_refl s
  · exact sameButLine_refl s

/-- The Line Interface's work in a period (R1 to R16) touches the line, the frame in flight and the latch alone. -/
theorem readLine_sameButLine (s : State) : s.sameButLine (readLine s) := by
  have hread : s.sameButLine s.lineRead := ⟨_, _, _, rfl⟩
  rw [readLine_eq]
  split
  · exact sameButLine_refl s
  · exact hread
  · refine sameButLine_trans hread ?_
    unfold readHunt
    split <;> exact ⟨_, _, _, rfl⟩
  · exact sameButLine_trans hread (readCell_sameButLine _)
  · exact sameButLine_trans hread (readGap_sameButLine ..)

theorem readInputs_clock (pins : Pins) (h : s.clockInRange) : (readInputs pins s).clockInRange := by
  have hcaptures {t : State} (h : t.clockInRange) : (readCaptures t).clockInRange := by
    rw [readCaptures_eq]
    exact h
  have hport {t : State} (h : t.clockInRange) : (readPort t).clockInRange := by
    obtain ⟨htrim, hslew, hfraction, hstore⟩ := h
    obtain ⟨_, hsame⟩ := readPort_result_store t
    rw [readPort_eq] at hsame ⊢
    exact ⟨htrim, hslew, hfraction, hsame ▸ hstore⟩
  have hread := hport (hcaptures (t := { s with pins }) h)
  obtain ⟨line, frame, latch, he⟩ := readLine_sameButLine (readPort (readCaptures { s with pins }))
  rw [readInputs, he]
  exact hread

theorem commonTimeAdvance_clock (pins : Pins) (h : s.clockInRange) : (commonTimeAdvance pins s).clockInRange :=
  readInputs_clock pins (boundary_clock (settle_clock h))

/-! ### Every row -/

/-- Every row answers a next state whose clock is in range where the row's first state's was. -/
theorem exec_clock (i : Instr) (h : s.clockInRange) : ∃ t, exec i s = .next t ∧ t.clockInRange := by
  have hcommand (f : State → State) (hf : f ∈ hostCommands) : (f s).clockInRange := hostCommands_clock f hf s h
  simp only [hostCommands, List.forall_mem_cons] at hcommand
  obtain ⟨hbad, hnop, hconfigure, hstart, hstop, hleave, htime, hstatus, hpeer, haction, hpropose, hschedule, hcancel, hreport,
    hcapture, _⟩ := hcommand
  cases i with
  | powerOnReset pins => exact ⟨_, exec_powerOnReset pins s, powerOn_clock pins s⟩
  | resetN pins => exact ⟨_, exec_resetN pins s, powerOn_clock pins s⟩
  | badCommand => exact ⟨_, exec_badCommand s, hbad⟩
  | nop => exact ⟨_, exec_nop s, hnop⟩
  | configure => exact ⟨_, exec_configure s, hconfigure⟩
  | start => exact ⟨_, exec_start s, hstart⟩
  | stop => exact ⟨_, exec_stop s, hstop⟩
  | leave => exact ⟨_, exec_leave s, hleave⟩
  | readTime => exact ⟨_, exec_readTime s, htime⟩
  | readStatus => exact ⟨_, exec_readStatus s, hstatus⟩
  | readPeer => exact ⟨_, exec_readPeer s, hpeer⟩
  | readAction => exact ⟨_, exec_readAction s, haction⟩
  | propose => exact ⟨_, exec_propose s, hpropose⟩
  | schedule => exact ⟨_, exec_schedule s, hschedule⟩
  | cancel => exact ⟨_, exec_cancel s, hcancel⟩
  | takeReport => exact ⟨_, exec_takeReport s, hreport⟩
  | takeCapture => exact ⟨_, exec_takeCapture s, hcapture⟩
  | lineQuiet => exact ⟨_, exec_lineQuiet s, lineQuiet_clock h⟩
  | lineStuck o => exact ⟨_, exec_lineStuck o s, lineStuck_clock o h⟩
  | access => exact ⟨_, exec_access s, access_clock h⟩
  | frameStart => exact ⟨_, exec_frameStart s, frameStart_clock h⟩
  | falseStart o => exact ⟨_, exec_falseStart o s, falseStart_clock o h⟩
  | stopError o => exact ⟨_, exec_stopError o s, stopError_clock o h⟩
  | gapExpiry o => exact ⟨_, exec_gapExpiry o s, gapExpiry_clock o h⟩
  | arbitrationLost => exact ⟨_, exec_arbitrationLost s, arbitrationLost_clock h⟩
  | collision o => exact ⟨_, exec_collision o s, collision_clock o h⟩
  | driverFailure o => exact ⟨_, exec_driverFailure o s, driverFailure_clock o h⟩
  | checkComplete => exact ⟨_, exec_checkComplete s, checkComplete_clock h⟩
  | frameCompleted => exact ⟨_, exec_frameCompleted s, frameCompleted_clock h⟩
  | syncAccepted o => exact ⟨_, exec_syncAccepted o s, syncAccepted_clock o h⟩
  | leaveAccepted o => exact ⟨_, exec_leaveAccepted o s, leaveAccepted_clock o h⟩
  | proposeAccepted o => exact ⟨_, exec_proposeAccepted o s, proposeAccepted_clock o h⟩
  | commitAccepted o => exact ⟨_, exec_commitAccepted o s, commitAccepted_clock o h⟩
  | cancelAccepted o => exact ⟨_, exec_cancelAccepted o s, cancelAccepted_clock o h⟩
  | markAccepted o => exact ⟨_, exec_markAccepted o s, markAccepted_clock o h⟩
  | listenTimeout => exact ⟨_, exec_listenTimeout s, listenTimeout_clock h⟩
  | roundStart => exact ⟨_, exec_roundStart s, roundStart_clock h⟩
  | roundClose o => exact ⟨_, exec_roundClose o s, roundClose_clock o h⟩
  | stepNotice first => exact ⟨_, exec_stepNotice first s, stepNotice_clock first h⟩
  | actionDue => exact ⟨_, exec_actionDue s, actionDue_clock h⟩
  | pulseEnd c => exact ⟨_, exec_pulseEnd c s, pulseEnd_clock c h⟩
  | deadlineEvent id => exact ⟨_, exec_deadlineEvent id s, deadlineEvent_clock id h⟩
  | followUpDeadline id => exact ⟨_, exec_followUpDeadline id s, followUpDeadline_clock id h⟩
  | captureEdge => exact ⟨_, exec_captureEdge s, captureEdge_clock h⟩
  | commonTimeAdvance pins => exact ⟨_, exec_commonTimeAdvance pins s, commonTimeAdvance_clock pins h⟩
  | resetNAsserted => exact ⟨_, exec_resetNAsserted s, h⟩
  | receivedFrameEnd => exact ⟨_, exec_receivedFrameEnd s, receivedFrameEnd_clock h⟩
  | lengthAbove24 => exact ⟨_, exec_lengthAbove24 s, lengthAbove24_clock h⟩

/-- Settles O55: the requests are clamped, the fraction is a remainder, a stored record is valid, and START takes its initial trim from
it; every other row leaves the five terms (`exec_clock`). -/
theorem stepKeepsTheClockInRange : Obligations.StepKeepsTheClockInRange := by
  intro s t hstep h
  unfold step at hstep
  split at hstep
  · cases hstep
    exact h
  · rename_i i rest _
    obtain ⟨u, hexec, hu⟩ := exec_clock (s := { s with pending := rest }) i h
    cases hexec.symm.trans hstep
    exact hu

end Sys2Proof.Machine
end

section
/-! PROOFS. The boundary of a REFCLK period (O49): where nothing is outstanding nothing is taken, and what the advance and the readings leave. -/

namespace Sys2Proof.Machine

variable {s : State}

/-! ### The increment -/

/-- Within the limits of the trim and the slew term the increment is positive, so nothing is cut off (R41, R42). -/
theorem increment_eq {b : TimeBase} (htrim : -200000 ≤ b.trim) (hslew : -500000 ≤ b.slew) :
    (b.increment : Int) = 40 * (1000000000 + b.trim + b.slew) := by
  unfold TimeBase.increment
  omega

/-! ### Nothing outstanding -/

/-- A list of events none of which has an effect. -/
theorem foldl_waits {α : Type} {f : State → α → State} (h : ∀ a, f s a = s) (xs : List α) : xs.foldl f s = s :=
  List.foldlRecOn xs f (motive := (· = s)) rfl fun _ hs a _ => hs ▸ h a

/-- Without the end of a transaction no command is judged (R169). -/
theorem takeTransaction_waits (h : s.port.ended = none) : takeTransaction s = s := by
  have hcommand : s.command = none := by simp [State.command, h]
  have hwaits : ∀ f ∈ hostCommands, f s = s := by
    have htake (code : Byte) (n : Nat) (owner : List Byte → State → State) : takeCommand code n owner s = s := by
      simp [takeCommand, hcommand]
    simp only [hostCommands, List.forall_mem_cons]
    exact ⟨by simp [badCommand, hcommand], htake .., htake .., htake .., htake .., htake .., htake .., htake .., htake .., htake ..,
      htake .., htake .., htake .., htake .., htake .., List.forall_mem_nil _⟩
  exact List.foldlRecOn hostCommands _ (motive := (· = s)) rfl fun _ hs f hf => hs ▸ hwaits f hf

theorem settleFirings_waits (h : actionDue s = s) (n : Nat) : settleFirings n s = s := by
  induction n with
  | zero => rfl
  | succ n ih => rw [settleFirings, h, ih]

/-- Where no row has an effect, nothing is taken at the end of the period. -/
theorem settle_waits (hfinding : s.line.finding = none) (hended : s.port.ended = none)
    (hrows : ∀ i ∈ [Instr.stepNotice true, .lineStuck .stateFirst, .lineQuiet, .listenTimeout, .roundStart,
      .roundClose ⟨[], .noticesDiscardMove⟩, .actionDue, .captureEdge, .access], exec i s = .next s)
    (hpulses : ∀ c : Channel, exec (.pulseEnd c) s = .next s)
    (hdeadlines : ∀ id : ActionId, exec (.deadlineEvent id) s = .next s ∧ exec (.followUpDeadline id) s = .next s) :
    settle s = s := by
  simp only [List.forall_mem_cons, exec_stepNotice, exec_lineStuck, exec_lineQuiet, exec_listenTimeout, exec_roundStart,
    exec_roundClose, exec_actionDue, exec_captureEdge, exec_access, Host.Outcome.next.injEq] at hrows
  obtain ⟨hnotice, hstuck, hquiet, hlisten, hstart, hclose, hfire, hcapture, haccess, _⟩ := hrows
  simp only [exec_pulseEnd, exec_deadlineEvent, exec_followUpDeadline, Host.Outcome.next.injEq] at hpulses hdeadlines
  have hfound : settleFinding s = s := by simp [settleFinding, hfinding]
  have hline : settleLine s = s := by rw [settleLine, hstuck, hquiet]
  have hrounds : settleRounds s = s := by rw [settleRounds, hlisten, hstart, hclose]
  have hevents : settleDeadlines s = s := by
    have hpassed := foldl_waits (f := fun s id => deadlineEvent id s) (fun id => (hdeadlines id).1) (s.table.entries.map Entry.id)
    have hfollowed := foldl_waits (f := fun s id => followUpDeadline id s) (fun id => (hdeadlines id).2) (s.table.entries.map Entry.id)
    simp only [settleDeadlines, hpassed, hfollowed]
  have hactions : settleActions s = s := by
    have hended := foldl_waits (f := fun s c => pulseEnd c s) hpulses allChannels
    simp only [settleActions, hended, settleFirings_waits hfire]
  have hcaptures : settleCaptures s = s := by rw [settleCaptures, hcapture, hcapture, hcapture, hcapture]
  rw [settle, hnotice, hfound, hline, hrounds, hevents, hactions, hcaptures, takeTransaction_waits hended, haccess]

/-! ### The readings of the period that begins -/

/-- The readings of a period change its pins, the capture inputs, the transaction, the line, the frame in flight and the latch alone. -/
theorem readInputs_eq (pins : Pins) (s : State) :
    ∃ sampled edges port line frame latch, port.result = s.port.result ∧ port.store = s.port.store
      ∧ readInputs pins s =
        { s with
          pins := pins
          capture.sampled := sampled
          capture.edges := edges
          port := port
          line := line
          engine.frame := frame
          base.latch := latch } := by
  obtain ⟨hresult, hstore⟩ := readPort_result_store (readCaptures { s with pins })
  obtain ⟨line, frame, latch, he⟩ := readLine_sameButLine (readPort (readCaptures { s with pins }))
  rw [readInputs, he]
  rw [readPort_eq, readCaptures_eq] at hresult hstore ⊢
  exact ⟨_, _, _, line, frame, latch, hresult, hstore, rfl⟩

/-- Settles O49: the advance is `TimeBase.advance`, and the readings behind it leave what it gives (`readInputs_eq`). -/
theorem timeAdvancesAtTheBoundary : Obligations.TimeAdvancesAtTheBoundary := by
  refine ⟨fun b htrim _ hslew _ => increment_eq htrim hslew, fun s => settle_waits, fun ending s pins hsettle => ?_⟩
  intro units
  have hadvance : commonTimeAdvance pins ending = readInputs pins (boundary s) := by rw [commonTimeAdvance, hsettle]
  obtain ⟨sampled, edges, port, line, frame, latch, hresult, hstore, hread⟩ := readInputs_eq pins (boundary s)
  refine ⟨_, (exec_commonTimeAdvance pins ending).trans (congrArg Host.Outcome.next (hadvance.trans hread)), rfl, rfl, ?_, rfl,
    ⟨rfl, rfl, rfl⟩, ⟨rfl, rfl⟩, ⟨rfl, rfl, rfl⟩, ⟨?_, rfl⟩, ⟨rfl, rfl, rfl, rfl, rfl, rfl, rfl, hstore, hresult, rfl⟩⟩
  · simp only [boundary_base_advance, TimeBase.advance]
    split <;> rfl
  · exact congrArg (· && !s.resetLow) (irq_eq ..)

end Sys2Proof.Machine
end

section
/-! PROOFS. The records and marks of the Capture Unit (O48). -/

namespace Sys2Proof.Machine

variable {s : State} {i : Channel} {edge : CaptureEdge}

/-! ### The flags -/

theorem unsynced_eq (st : StationState) : st.unsynced = (st == .listen || st == .joining || st == .fault) := by
  cases st <;> rfl

theorem captures_iff {st : StationState} : st.captures = true ↔ st ≠ .off ∧ st ≠ .leaving := by
  cases st <;> simp [StationState.captures]

/-! ### A captured edge -/

theorem captureEdge_next (h : s.nextEdge = some (i, edge)) :
    captureEdge s =
      if s.ctl.state.captures then recordEdge i edge { s with capture.edges := s.capture.edges.set i none }
      else { s with capture.edges := s.capture.edges.set i none } := by
  simp only [captureEdge, h]

/-- Without room in the MARK queue, out of a round, or with an input that is not shared, no mark is placed (R153). -/
theorem recordEdge_unmarked (h : s.placesMark i = false) :
    recordEdge i edge s =
      joinCapture ⟨.loc, i, edge, s.stamp, s.ctl.state.unsynced, s.ctl.state.isHoldover, s.cfg.capture[i].share, 0⟩ s := by
  simp [recordEdge, h]

theorem recordEdge_marked (h : s.placesMark i = true) :
    recordEdge i edge s =
      joinMarks ⟨i, edge, s.stamp, s.ctl.state.unsynced, s.ctl.state.isHoldover⟩
        (joinCapture ⟨.loc, i, edge, s.stamp, s.ctl.state.unsynced, s.ctl.state.isHoldover, false, 0⟩ s) := by
  simp [recordEdge, h]

/-- A mark that becomes the head of the queue raises the MARK need (R153, R154). -/
theorem joinMarks_eq (m : Mark) (h : s.ctl.state.takesPart = true) :
    joinMarks m s =
      { s with
        capture.marks := s.capture.marks ++ [m]
        engine.needs :=
          if s.capture.marks = [] then
            s.engine.needs.filter (fun n => n.source != .markQueue) ++ [⟨.mark, .markQueue, s.engine.nextAge⟩]
          else s.engine.needs
        engine.nextAge := if s.capture.marks = [] then s.engine.nextAge + 1 else s.engine.nextAge } := by
  by_cases hempty : s.capture.marks = []
  · simp only [joinMarks, hempty, List.isEmpty_nil, if_true]
    exact raiseNeed_taken (s := { s with capture.marks := [] ++ [m] }) (takesPart_keeps_needs h _)
  · simp only [joinMarks, List.isEmpty_iff, hempty, if_false]

theorem placesMark_iff : s.placesMark i = true ↔ s.cfg.capture[i].share = true ∧ s.ctl.state.takesPart = true ∧ s.capture.marks.length < 4 := by
  simp [State.placesMark, and_assoc]

/-! ### A received mark -/

theorem memberMark_wellFormed {payload : List Byte} {m : Mark} (hm : decodeMark payload = some m) (n : Station) (s : State) :
    memberMark n payload s =
      (joinCapture ⟨.remote n, m.input, m.edge, m.time, m.unsynced, m.holdover, false, 0⟩ s, true) := by
  simp only [memberMark, hm]

theorem memberMark_malformed {payload : List Byte} (hm : decodeMark payload = none) (n : Station) (s : State) :
    memberMark n payload s = (s, false) := by
  simp only [memberMark, hm]

/-- The ack and the end of the latch stand behind a record as they stand before it. -/
theorem joinCapture_ackFrame (r : CaptureRecord) (s : State) :
    dropLatch (ackFrame (joinCapture r s)) = joinCapture r (dropLatch (ackFrame s)) := rfl

/-- Settles O48: the record with and without its mark (`recordEdge_marked`, `recordEdge_unmarked`), and the hand-over of a mark. -/
theorem capturesAndMarksAreRecorded : Obligations.CapturesAndMarksAreRecorded := by
  refine ⟨fun s i edge hnext hoff => ?_, fun s o f n haccepts hpart => ⟨fun m hm => ?_, fun hm => ?_⟩⟩
  · intro unsynced holdover share records t
    have hexec : exec .captureEdge s = .next (if s.ctl.state.captures then recordEdge i edge t else t) := by
      rw [exec_captureEdge, captureEdge_next hnext]
    have hrecord (hleaving : s.ctl.state ≠ .leaving) : exec .captureEdge s = .next (recordEdge i edge t) := by
      rw [hexec, if_pos (captures_iff.2 ⟨hoff, hleaving⟩)]
    have hunmarked (h : t.placesMark i = false) : recordEdge i edge t = { t with capture.records := records share } := by
      rw [recordEdge_unmarked h, unsynced_eq]
      rfl
    have hplaces : t.placesMark i = true ↔ share = true ∧ s.ctl.state.takesPart = true ∧ s.capture.marks.length < 4 := placesMark_iff
    refine ⟨fun hleaving => ?_, fun hleaving hshare => ?_, fun hleaving hshare hno => ?_, fun hshare hpart hroom => ?_⟩
    · rw [hexec, if_neg fun hc => (captures_iff.1 hc).2 hleaving]
    · have hno : t.placesMark i = false := by simp [← Bool.not_eq_true, hplaces, hshare]
      rw [hrecord hleaving, hunmarked hno, hshare]
    · have hno : t.placesMark i = false := by
        rw [← Bool.not_eq_true, hplaces]
        rintro ⟨_, hpart, hroom⟩
        rcases hno with hno | hfull
        · simp [hpart] at hno
        · omega
      rw [hrecord hleaving, hunmarked hno, hshare]
    · have hleaving : s.ctl.state ≠ .leaving := (takesPart_holdsTable hpart).2
      rw [hrecord hleaving, recordEdge_marked (hplaces.2 ⟨hshare, hpart, hroom⟩), joinMarks_eq (s := joinCapture _ t) _ hpart,
        unsynced_eq]
      rfl
  · have ⟨_, hframe, _⟩ := haccepts
    rw [exec_markAccepted, markAccepted, acceptFrame_accepts haccepts,
      handOn_acked (s := atAcceptance s) hpart (memberMark_wellFormed hm n _), joinCapture_ackFrame, ackFrame_atAcceptance hframe]
    rfl
  · have ⟨_, hframe, _⟩ := haccepts
    rw [exec_markAccepted, markAccepted, acceptFrame_accepts haccepts,
      handOn_unacked (s := atAcceptance s) hpart (memberMark_malformed hm n _), dropLatch_atAcceptance hframe]

end Sys2Proof.Machine
end

section
/-! PROOFS. SYNC at its acceptance instant: the sender's entry, its notices, and adoption (O30, O31). -/

namespace Sys2Proof.Machine

variable {s : State} {n : Station} {c : SyncContent} {l : Latch}

/-! ### The ack behind what a SYNC does -/

/-- The ack and the end of the latch, as the end of an acceptance instant. -/
def State.acked (s : State) : State := dropLatch (ackFrame s)

theorem acked_atAcceptance {f : Frame} (hframe : s.engine.frame = some f) : (atAcceptance s).acked = s.afterAcceptance f true :=
  ackFrame_atAcceptance hframe

theorem raiseNeed_acked (kind : FrameKind) (source : NeedSource) (s : State) :
    (raiseNeed kind source s).acked = raiseNeed kind source s.acked := by
  have hctl : s.acked.ctl = s.ctl := rfl
  unfold raiseNeed
  rw [hctl]
  split <;> rfl

theorem pruneEntry_acked (n : Station) (e : Entry) (s : State) : (pruneEntry n e s).acked = pruneEntry n e s.acked := by
  unfold pruneEntry
  extract_lets e'
  split
  · exact raiseNeed_acked _ _ (putEntry _ s)
  · rfl

/-- A left notice reaches the table, the needs and the reports, which the ack leaves (R133, R141). -/
theorem leftNotice_acked (n : Station) (s : State) : (leftNotice n s).acked = leftNotice n s.acked := by
  have hdrop (entries : List Entry) (t : State) : (dropHeld entries t).acked = dropHeld entries t.acked :=
    (List.foldl_hom State.acked fun _ _ => rfl).symm
  have hprune : (pruneRequired n s).acked = pruneRequired n s.acked :=
    (List.foldl_hom State.acked fun t e => (pruneEntry_acked n e t).symm).symm
  simp only [leftNotice, protocolLeft, purgeOwner, hdrop, ← hprune]
  rfl

/-! ### The sender's entry -/

/-- The offset is read off the latch that the frame start has set (R53). -/
theorem offset_eq (h : s.latchNow = some l) (refTime : Time) :
    s.offset refTime = (refTime + BitVec.ofNat 64 s.cfg.lineDelay - l.stamp).toInt := by
  simp [State.offset, h, offsetOf]

/-- The state behind the carried fields and the sample of a SYNC, with a member flag (R59 to R61). -/
def State.synced (s : State) (n : Station) (c : SyncContent) (offset : Int) (member : Bool) : State :=
  { s with
    peers :=
      s.peers.set n
        { s.peer n with
          present := true
          reported := some c.sender
          member := member
          lastRound := some c.round
          sample := if s.recordsSample c then some offset else (s.peer n).sample
          count := some c.count
          anchor := some (lowestWith n c.members)
          disagreeing := exceeds offset s.cfg.thresholdNs }
    rounds.samples := if s.recordsSample c then insertSample n offset s.rounds.samples else s.rounds.samples }

theorem setPeer_setPeer (n : Station) (p q : Peer) (s : State) : setPeer n q (setPeer n p s) = setPeer n q s := by
  simp [setPeer]

/-- The carried fields and the sample leave the member flag as it is (R59, R60). -/
theorem takeSample_heard (n : Station) (c : SyncContent) (offset : Int) (s : State) :
    takeSample n c offset (setPeer n ((s.peer n).heard n c) s) = s.synced n c offset (s.peer n).member := by
  have hrecords : (setPeer n ((s.peer n).heard n c) s).recordsSample c = s.recordsSample c := rfl
  cases h : s.recordsSample c with
  | true =>
    simp only [takeSample, hrecords, h, setPeer_same, setPeer_setPeer, State.synced, if_true]
    rfl
  | false =>
    simp only [takeSample, hrecords, h, setPeer_same, setPeer_setPeer, State.synced]
    rfl

theorem synced_peer (n : Station) (c : SyncContent) (offset : Int) (member : Bool) (s : State) :
    (s.synced n c offset member).peer n =
      { s.peer n with
        present := true
        reported := some c.sender
        member := member
        lastRound := some c.round
        sample := if s.recordsSample c then some offset else (s.peer n).sample
        count := some c.count
        anchor := some (lowestWith n c.members)
        disagreeing := exceeds offset s.cfg.thresholdNs } := by
  simp [State.peer, State.synced]

/-- A new member flag is all that a second writing of the entry changes. -/
theorem synced_member (n : Station) (c : SyncContent) (offset : Int) (old member : Bool) (s : State) :
    setPeer n { (s.synced n c offset old).peer n with member := member } (s.synced n c offset old) = s.synced n c offset member := by
  rw [synced_peer]
  simp [setPeer, State.synced]

/-- The member flag that a SYNC gives its sender (R61). -/
def State.memberBy (s : State) (n : Station) (c : SyncContent) (offset : Int) : Bool :=
  c.sender != .joining && !(s.peer n).suspect && !exceeds offset s.cfg.thresholdNs

theorem memberAfter_eq (sender : SenderState) (suspect disagreeing : Bool) :
    memberAfter sender suspect disagreeing = (sender != .joining && !suspect && !disagreeing) := by
  cases sender <;> rfl

/-- A SYNC writes its sender's entry, and a member flag that changes makes its notice (R59 to R61, R64). -/
theorem syncReceived_eq (n : Station) (c : SyncContent) (offset : Int) (s : State) :
    let member := s.memberBy n c offset
    let t := s.synced n c offset member
    syncReceived n c offset s =
      if member && !(s.peer n).member then joinedNotice (queueReport (.peerJoined n) t)
      else if !member && (s.peer n).member then leftNotice n t
      else t := by
  intro member t
  have hmember : memberAfter c.sender (s.peer n).suspect (exceeds offset s.cfg.thresholdNs) = member := memberAfter_eq ..
  have hold : ((s.synced n c offset (s.peer n).member).peer n).member = (s.peer n).member := by rw [synced_peer]
  simp only [syncReceived, takeSample_heard]
  rw [synced_peer, hmember]
  simp only [setMember, synced_member, hold]
  split
  · rfl
  · split
    · rfl
    · rename_i hstays hkept
      have hsame : member = (s.peer n).member := by
        revert hstays hkept
        cases member <;> cases (s.peer n).member <;> simp
      rw [← hsame]

/-! ### SYNC in a station that takes part -/

theorem joinedNotice_joining (h : s.ctl.state = .joining) : joinedNotice s = s := by simp only [joinedNotice, h]

theorem joinedNotice_synced (h : s.ctl.state = .synced) : joinedNotice s = { s with rounds.peered := true } := by
  simp only [joinedNotice, h]

theorem joinedNotice_holdover (h : s.ctl.state = .holdover) : joinedNotice s = moveState .synced .peerReturned s := by
  simp only [joinedNotice, h]

theorem joinedNotice_acked (s : State) : (joinedNotice s).acked = joinedNotice s.acked := by
  have hctl : s.acked.ctl = s.ctl := rfl
  unfold joinedNotice
  rw [hctl]
  split <;> rfl

theorem syncReceived_acked (n : Station) (c : SyncContent) (offset : Int) (s : State) :
    (syncReceived n c offset s).acked = syncReceived n c offset s.acked := by
  have hpeer : s.acked.peer n = s.peer n := rfl
  have hmember : s.acked.memberBy n c offset = s.memberBy n c offset := rfl
  simp only [syncReceived_eq, hpeer, hmember]
  split
  · exact joinedNotice_acked _
  · split
    · exact leftNotice_acked ..
    · rfl

/-- SYNC_ACCEPTED in JOINING, SYNCED and HOLDOVER: what the SYNC does, on the acked state (R30, R53). -/
theorem syncAccepted_takes {f : Frame} (haccepts : s.accepts .sync f n) (hpart : s.ctl.state.takesPart = true)
    (hsync : decodeSync f.payload = some c) (hlatch : s.latchNow = some l) (o : FaultOrder) :
    syncAccepted o s =
      syncReceived n c (c.refTime + BitVec.ofNat 64 s.cfg.lineDelay - l.stamp).toInt (s.afterAcceptance f true) := by
  have ⟨_, hframe, _⟩ := haccepts
  have htake : takeSync n f.payload (atAcceptance s) = (syncReceived n c (s.offset c.refTime) (atAcceptance s), true) := by
    simp only [takeSync, hsync]
    rfl
  rw [← acked_atAcceptance hframe, ← syncReceived_acked, ← offset_eq hlatch, syncAccepted, acceptFrame_accepts haccepts,
    handOn_acked (s := atAcceptance s) hpart htake]
  rfl

/-- Settles O30: the flag stays, rises with a joined notice, or falls with a left notice (`syncReceived_eq`). -/
theorem syncUpdatesItsSender : Obligations.SyncUpdatesItsSender := by
  intro s o f n c l haccepts hpart hsync hlatch offset far sampled p member t joined
  have hexec : exec (.syncAccepted o) s =
      .next
        (if member && !p.member then joinedNotice (queueReport (.peerJoined n) t)
        else if !member && p.member then leftNotice n t
        else t) := by
    rw [exec_syncAccepted, syncAccepted_takes haccepts hpart hsync hlatch, syncReceived_eq]
    rfl
  refine ⟨fun hsame => ?_, fun hnew hold => ?_, fun hnew hold => ?_⟩
  · rw [hexec, hsame]
    simp
  · rw [hexec, hnew, hold]
    have hnotice : (queueReport (.peerJoined n) t).ctl.state = s.ctl.state := rfl
    refine ⟨fun hst => ?_, fun hst => ?_, fun hst => ?_⟩ <;> rw [hst] at hnotice
    · exact congrArg Host.Outcome.next (joinedNotice_joining hnotice)
    · exact congrArg Host.Outcome.next (joinedNotice_synced hnotice)
    · refine congrArg Host.Outcome.next ((joinedNotice_holdover hnotice).trans ?_)
      rw [moveState, hnotice]
      rfl
  · rw [hexec, hnew, hold]
    rfl

/-! ### SYNC in LISTEN -/

theorem adopt_listen (h : s.ctl.state = .listen) (offset : Int) :
    adopt offset s =
      { s with
        base.pendingStep := some ⟨offset, .adopt⟩
        base.slew := 0
        ctl.state := .joining
        ctl.listenTimer := none
        reports.records := s.reported (.stateChanged .listen .joining .adopted) .joining } := by
  have hstep : requestStep ⟨offset, .adopt⟩ s = zeroSlew { s with base.pendingStep := some ⟨offset, .adopt⟩ } :=
    if_pos (by simp [takesStep, h])
  rw [adopt, hstep, moveState, ← h]
  rfl

/-- Settles O31: the entry alone (`Peer.heard`), or with an adoption (`adopt_listen`). -/
theorem listeningStationAdopts : Obligations.ListeningStationAdopts := by
  intro s o f n c l haccepts hlisten hsync hlatch offset t
  have ⟨_, hframe, _⟩ := haccepts
  have hexec : exec (.syncAccepted o) s = .next (dropLatch (syncHeard n c offset (atAcceptance s))) := by
    have hhear : (hearSync n f.payload (atAcceptance s)).1 = syncHeard n c (s.offset c.refTime) (atAcceptance s) := by
      simp only [hearSync, hsync]
      rfl
    rw [exec_syncAccepted, syncAccepted, acceptFrame_accepts haccepts, handOn_listen (s := atAcceptance s) hlisten, hhear,
      offset_eq hlatch]
  have hentry : dropLatch (setPeer n ((s.peer n).heard n c) (atAcceptance s)) = t := by
    rw [atAcceptance_eq hframe]
    rfl
  refine ⟨fun hsender => ?_, fun hsender => ?_⟩
  · rw [hexec, ← hentry]
    simp only [syncHeard, hsender]
    rfl
  · have hadopts : syncHeard n c offset (atAcceptance s) = adopt offset (setPeer n ((s.peer n).heard n c) (atAcceptance s)) := by
      cases hc : c.sender with
      | joining => exact absurd hc hsender
      | synced => simp only [syncHeard, hc]; rfl
      | holdover => simp only [syncHeard, hc]; rfl
    rw [hexec, hadopts, adopt_listen (s := setPeer n _ (atAcceptance s)) hlisten, ← hentry]
    rfl

end Sys2Proof.Machine
end

section
/-! PROOFS. The step notice (O44): the entries by their ids, the deadlines and the firings that a forward step has passed, and the notice. -/

namespace Sys2Proof.Machine

variable {s t u : State} {e x : Entry} {id : ActionId} {entries : List Entry} {st : TimeStep}

/-! ### The entries by their ids -/

/-- No id stands twice in the due list (R112). -/
def State.idsOnce (s : State) : Prop := (s.table.entries.map Entry.id).Nodup

theorem find?_insertEntry_same (h : ∀ x ∈ entries, x.id ≠ e.id) : (insertEntry e entries).find? (fun x => x.id == e.id) = some e := by
  induction entries with
  | nil => simp [insertEntry]
  | cons a rest ih =>
    obtain ⟨ha, hrest⟩ := List.forall_mem_cons.1 h
    rw [insertEntry]
    split
    · simp
    · rw [List.find?_cons_of_neg (by simpa using ha), ih hrest]

theorem find?_insertEntry_other (h : id ≠ e.id) (entries : List Entry) :
    (insertEntry e entries).find? (fun x => x.id == id) = entries.find? fun x => x.id == id := by
  have he : ¬(e.id == id) = true := by simpa using h.symm
  induction entries with
  | nil => simp [insertEntry, he]
  | cons a rest ih =>
    rw [insertEntry]
    split
    · exact List.find?_cons_of_neg he
    · rw [List.find?_cons, List.find?_cons, ih]

theorem find?_dropEntry_other {gone : ActionId} (h : id ≠ gone) (entries : List Entry) :
    (dropEntry gone entries).find? (fun x => x.id == id) = entries.find? fun x => x.id == id := by
  rw [dropEntry, List.find?_filter]
  congr 1
  funext a
  by_cases ha : a.id = id
  · simp [ha, h]
  · simp [ha]

theorem putEntry_entry?_same (e : Entry) (s : State) : (putEntry e s).entry? e.id = some e :=
  find?_insertEntry_same fun _ hx => (mem_dropEntry.1 hx).2

theorem putEntry_entry?_other (h : id ≠ e.id) (s : State) : (putEntry e s).entry? id = s.entry? id :=
  (find?_insertEntry_other h _).trans (find?_dropEntry_other h _)

theorem removeEntry_entry?_same (id : ActionId) (s : State) : (removeEntry id s).entry? id = none := entry?_dropped rfl

theorem removeEntry_entry?_other {gone : ActionId} (h : id ≠ gone) (s : State) : (removeEntry gone s).entry? id = s.entry? id :=
  find?_dropEntry_other h _

theorem removeEntry_idsOnce (id : ActionId) (h : s.idsOnce) : (removeEntry id s).idsOnce :=
  List.Nodup.sublist ((dropEntry_sublist id s.table.entries).map Entry.id) h

theorem putEntry_idsOnce (e : Entry) (h : s.idsOnce) : (putEntry e s).idsOnce := by
  have hnew : e.id ∉ (dropEntry e.id s.table.entries).map Entry.id := fun hmem => by
    obtain ⟨x, hx, hid⟩ := List.mem_map.1 hmem
    exact (mem_dropEntry.1 hx).2 hid
  exact (((insertEntry_perm e _).map Entry.id).nodup_iff).2 (List.nodup_cons.2 ⟨hnew, removeEntry_idsOnce e.id h⟩)

theorem eq_of_id (h : s.idsOnce) (he : e ∈ s.table.entries) (hx : x ∈ s.table.entries) (hid : e.id = x.id) : e = x :=
  List.inj_on_of_nodup_map h he hx hid

/-- An entry of the table is the one found at its id (R112). -/
theorem entry?_of_mem (h : s.idsOnce) (he : e ∈ s.table.entries) : s.entry? e.id = some e := by
  cases hfind : s.entry? e.id with
  | none => exact absurd (List.find?_eq_none.1 hfind e he) (by simp)
  | some x => rw [eq_of_id h (entry?_mem hfind) he (entry?_id hfind)]

/-! ### An event at one entry -/

/-- What an event at the entry of an id leaves: the time, every other entry, and whether another entry's CANCEL is past its check point. -/
structure State.WorksAt (id : ActionId) (s t : State) : Prop where
  now : t.now = s.now
  once : s.idsOnce → t.idsOnce
  others : ∀ other, other ≠ id → t.entry? other = s.entry? other
  passed : ∀ other, other ≠ id → (t.cancelPassed other ↔ s.cancelPassed other)

theorem State.WorksAt.trans (h : s.WorksAt id t) (h' : t.WorksAt id u) : s.WorksAt id u where
  now := h'.now.trans h.now
  once := h'.once ∘ h.once
  others other hne := (h'.others other hne).trans (h.others other hne)
  passed other hne := (h'.passed other hne).trans (h.passed other hne)

/-- An event that touches neither the time nor the table nor the frame in flight. -/
theorem worksAt_of_same (id : ActionId) (hnow : t.now = s.now) (hentries : t.table.entries = s.table.entries)
    (hframe : t.engine.frame = s.engine.frame) : s.WorksAt id t where
  now := hnow
  once h := by rw [State.idsOnce, hentries]; exact h
  others other _ := by rw [State.entry?, State.entry?, hentries]
  passed other _ := by simp only [State.cancelPassed, State.sends, hframe]

theorem putEntry_worksAt (e : Entry) (s : State) : s.WorksAt e.id (putEntry e s) where
  now := rfl
  once := putEntry_idsOnce e
  others _ hne := putEntry_entry?_other hne s
  passed _ _ := Iff.rfl

theorem removeEntry_worksAt (id : ActionId) (s : State) : s.WorksAt id (removeEntry id s) where
  now := rfl
  once := removeEntry_idsOnce id
  others _ hne := removeEntry_entry?_other hne s
  passed _ _ := Iff.rfl

theorem queueReports_worksAt (id : ActionId) (ks : List ReportKind) (s : State) : s.WorksAt id (queueReports ks s) := by
  rw [queueReports_eq]
  exact worksAt_of_same id rfl rfl rfl

/-- An owner cut spares the frames of other entries (R38). -/
theorem ownerCut_worksAt (id : ActionId) (kinds : List FrameKind) (s : State) : s.WorksAt id (ownerCut id kinds s) := by
  obtain ⟨htable, _, _, hnow, hleft⟩ := ownerCut_frame id kinds s
  refine ⟨hnow, fun h => ?_, fun other _ => ?_, fun other hne => ⟨?_, ?_⟩⟩
  · rw [State.idsOnce, htable]
    exact h
  · rw [State.entry?, State.entry?, htable]
  · rintro ⟨need, out, f, hsends, hpassed⟩
    exact ⟨need, out, f, (hleft need out f hsends).1, hpassed⟩
  · rintro ⟨need, out, f, hsends, hsource, hpassed⟩
    have hspared : ownerCut id kinds s = s := by
      refine ownerCut_spares fun need' out' f' hsends' ⟨hcut, _⟩ => hne ?_
      obtain rfl : f = f' := Option.some.inj (hsends.1.symm.trans hsends'.1)
      obtain ⟨rfl, _⟩ := FrameRole.transmit.inj (hsends.2.symm.trans hsends'.2)
      exact NeedSource.entry.inj (hsource.symm.trans hcut)
    rw [hspared]
    exact ⟨need, out, f, hsends, hsource, hpassed⟩

/-- Events at some entries, one behind the other, leave every entry that is none of them. -/
theorem foldl_entry?_other {f : State → Entry → State} (hf : ∀ (s : State) e, s.WorksAt e.id (f s e)) {es : List Entry}
    (h : id ∉ es.map Entry.id) (s : State) : (es.foldl f s).entry? id = s.entry? id := by
  induction es generalizing s with
  | nil => rfl
  | cons a rest ih =>
    obtain ⟨ha, hrest⟩ : id ≠ a.id ∧ id ∉ rest.map Entry.id := by simpa only [List.map_cons, List.mem_cons, not_or] using h
    exact (ih hrest (f s a)).trans ((hf s a).others id ha)

/-- Events at some entries, one behind the other: an entry of them is as its own event leaves it, on a state with the same time, and with
its CANCEL past its check point or not as at first. -/
theorem foldl_entry?_at {f : State → Entry → State} (hf : ∀ (s : State) e, s.WorksAt e.id (f s e)) {es : List Entry}
    (honce : (es.map Entry.id).Nodup) (he : e ∈ es) (s : State) :
    ∃ u, u.now = s.now ∧ (u.cancelPassed e.id ↔ s.cancelPassed e.id) ∧ (es.foldl f s).entry? e.id = (f u e).entry? e.id := by
  induction es generalizing s with
  | nil => cases he
  | cons a rest ih =>
    obtain ⟨ha, hrest⟩ := List.nodup_cons.1 honce
    rcases List.mem_cons.1 he with rfl | he
    · exact ⟨s, rfl, Iff.rfl, foldl_entry?_other hf ha _⟩
    · obtain ⟨u, hnow, hpassed, hu⟩ := ih hrest he (f s a)
      have hne : e.id ≠ a.id := fun hid => ha (hid ▸ List.mem_map_of_mem he)
      exact ⟨u, hnow.trans (hf s a).now, hpassed.trans ((hf s a).passed _ hne), hu⟩

theorem foldl_idsOnce {f : State → Entry → State} (hf : ∀ (s : State) e, s.WorksAt e.id (f s e)) (es : List Entry) (h : s.idsOnce) :
    (es.foldl f s).idsOnce :=
  List.foldlRecOn es f h fun s hs e _ => (hf s e).once hs

/-! ### Late firings -/

theorem isDue_iff : s.isDue e = true ↔ e.state = .armed ∧ e.due ≤ s.now ∧ e.id ∉ s.table.firedNow := by
  simp [State.isDue, and_assoc]

theorem fire_worksAt (late : Bool) (e : Entry) (s : State) : s.WorksAt e.id (fire late e s) := by
  have hreport (t : State) : t.WorksAt e.id (fireReport late e t) := by
    unfold fireReport
    split <;> exact worksAt_of_same _ rfl rfl rfl
  have hmarked : s.WorksAt e.id (markFired e (fireOutput late e s)) := worksAt_of_same _ rfl rfl rfl
  have hfired := hmarked.trans (hreport _)
  refine hfired.trans ?_
  unfold fire fireEntry
  split
  · exact (removeEntry_worksAt ..).trans (worksAt_of_same _ rfl rfl rfl)
  · exact putEntry_worksAt (e.afterFiring late _) _

/-- What a late firing leaves of its entry: nothing behind its last occurrence (R122). -/
def Entry.firedLate (now : Time) (e : Entry) : Option Entry :=
  if (e.planLate now).ends then none else some (e.afterFiring true now)

theorem fire_entry? (e : Entry) (s : State) : (fire true e s).entry? e.id = e.firedLate s.now := by
  have hnow : (fireReport true e (markFired e (fireOutput true e s))).now = s.now := by
    unfold fireReport
    split <;> rfl
  rw [fire, fireEntry, hnow, show e.plan true s.now = e.planLate s.now from rfl, Entry.firedLate]
  by_cases h : (e.planLate s.now).ends = true
  · rw [if_pos h, if_pos h]
    exact removeEntry_entry?_same ..
  · rw [if_neg h, if_neg h]
    exact putEntry_entry?_same (e.afterFiring true s.now) _

/-- The late firings at each entry (R122). -/
theorem fireAllLate_entry? (h : s.idsOnce) (id : ActionId) :
    (fireAllLate s).entry? id = (s.entry? id).bind fun x => if s.isDue x then x.firedLate s.now else some x := by
  have hes : ((s.table.entries.filter s.isDue).map Entry.id).Nodup := List.Nodup.sublist (List.filter_sublist.map Entry.id) h
  have hother (hno : id ∉ (s.table.entries.filter s.isDue).map Entry.id) : (fireAllLate s).entry? id = s.entry? id :=
    foldl_entry?_other (fun s e => fire_worksAt true e s) hno s
  cases hx : s.entry? id with
  | none =>
    refine (hother fun hmem => ?_).trans hx
    obtain ⟨e, he, hid⟩ := List.mem_map.1 hmem
    have hfound := entry?_of_mem h (List.mem_of_mem_filter he)
    simp [hid, hx] at hfound
  | some x =>
    have hmem := entry?_mem hx
    have hid := entry?_id hx
    cases hdue : s.isDue x with
    | true =>
      obtain ⟨u, hnow, _, hu⟩ :=
        foldl_entry?_at (f := fun s e => fire true e s) (fun s e => fire_worksAt true e s) hes (List.mem_filter.2 ⟨hmem, hdue⟩) s
      rw [Option.bind_some, hdue, if_pos rfl, ← hnow, ← fire_entry? x u, ← hid]
      exact hu
    | false =>
      rw [Option.bind_some, hdue]
      refine (hother fun hin => ?_).trans hx
      obtain ⟨e, he, heid⟩ := List.mem_map.1 hin
      obtain ⟨he, hedue⟩ := List.mem_filter.1 he
      rw [eq_of_id h he hmem (heid.trans hid.symm), hdue] at hedue
      cases hedue

/-! ### The answers to the passed deadlines -/

/-- What the cut before a deadline's answer leaves: the table, the reports and what they are stamped with, and every other entry. -/
structure State.CutFor (id : ActionId) (s t : State) : Prop where
  table : t.table = s.table
  reports : t.reports = s.reports
  ctl : t.ctl = s.ctl
  works : s.WorksAt id t

theorem cutFor_refl (id : ActionId) (s : State) : s.CutFor id s := ⟨rfl, rfl, rfl, worksAt_of_same id rfl rfl rfl⟩

theorem ownerCut_cutFor (id : ActionId) (kinds : List FrameKind) (s : State) : s.CutFor id (ownerCut id kinds s) := by
  obtain ⟨htable, hreports, hctl, _, _⟩ := ownerCut_frame id kinds s
  exact ⟨htable, hreports, hctl, ownerCut_worksAt id kinds s⟩

/-- The deadline of the entry removes it (R136, R140, R146). -/
def State.endsAtDeadline (s : State) (e : Entry) : Prop :=
  e.state ∈ [.pending, .committing, .held]
    ∨ e.state = .cancelling ∧ (e.pointReached = true ∧ ¬s.cancelPassed e.id ∨ e.pointReached = false ∧ e.armedSet = none)

/-- The reports of a deadline that removes the entry (R136, R140, R146). -/
def Entry.deadlineReports (e : Entry) : List ReportKind :=
  if e.state = .pending ∨ e.state = .committing then [.proposalFailed e.id e.missing .late]
  else if e.state = .held then [.heldExpired e.id]
  else if e.pointReached then e.incompleteReports
  else if e.byHost then [.actionCancelled e.id] else []

theorem pointReached_iff : e.pointReached = true ↔ ∃ r, e.marks = some ⟨r, true⟩ := by
  rcases hmarks : e.marks with _ | ⟨r, p⟩ <;> simp [Entry.pointReached, hmarks]

theorem answerDeadline_removes (h : s.endsAtDeadline e) :
    ∃ v, s.CutFor e.id v ∧ answerDeadline e s = queueReports e.deadlineReports (removeEntry e.id v) := by
  rcases h with hstate | ⟨hstate, ⟨hpoint, hflight⟩ | ⟨hpoint, hset⟩⟩
  · simp only [List.mem_cons, List.not_mem_nil, or_false, ← or_assoc] at hstate
    rcases hstate with hstate | hstate
    · refine ⟨_, ownerCut_cutFor e.id e.deadlineCuts s, (answerDeadline_proposal hstate).trans ?_⟩
      rw [Entry.deadlineReports, if_pos hstate]
      rfl
    · refine ⟨s, cutFor_refl .., ?_⟩
      simp only [answerDeadline, hstate, heldDeadline, Entry.deadlineReports]
      rfl
  · obtain ⟨r, hmarks⟩ := pointReached_iff.1 hpoint
    refine ⟨_, ownerCut_cutFor e.id e.deadlineCuts s, (answerDeadline_ends hstate hmarks hflight).trans ?_⟩
    simp [endCancel, Entry.deadlineReports, hstate, hpoint]
  · have hcommitted : ¬e.committed = true := by simp [committed_iff, hset]
    refine ⟨_, ownerCut_cutFor e.id e.deadlineCuts s, (answerDeadline_cancelling hstate).trans ?_⟩
    simp [Entry.deadlineReports, hstate, hpoint, hcommitted]

theorem answerDeadline_returns (hstate : e.state = .cancelling) (hpoint : e.pointReached = false) (hset : e.armedSet ≠ none) :
    ∃ v, s.CutFor e.id v
      ∧ answerDeadline e s = queueReport (.cancelLate e.id .deadline) (withdrawNeed (.entry e.id) (putEntry e.rearmed v)) := by
  refine ⟨_, ownerCut_cutFor e.id e.deadlineCuts s, (answerDeadline_cancelling hstate).trans ?_⟩
  rw [if_neg (by simp [hpoint]), if_pos (committed_iff.2 hset)]

theorem answerDeadline_waits (hstate : e.state = .cancelling) (hpoint : e.pointReached = true) (hflight : s.cancelPassed e.id) :
    answerDeadline e s = putEntry { e with finalAwaited := true } s := by
  obtain ⟨r, hmarks⟩ := pointReached_iff.1 hpoint
  exact answerDeadline_awaits hstate hmarks hflight

/-- The answer to a deadline removes the entry, returns it to ARMED or waits with it; an ARMED entry has none. -/
theorem answerDeadline_cases (e : Entry) (s : State) :
    s.endsAtDeadline e ∨ (e.state = .cancelling ∧ e.pointReached = false ∧ e.armedSet ≠ none)
      ∨ (e.state = .cancelling ∧ e.pointReached = true ∧ s.cancelPassed e.id) ∨ answerDeadline e s = s := by
  cases hstate : e.state with
  | pending => exact .inl (.inl (by simp [hstate]))
  | committing => exact .inl (.inl (by simp [hstate]))
  | held => exact .inl (.inl (by simp [hstate]))
  | armed => exact .inr (.inr (.inr (by simp [answerDeadline, hstate])))
  | cancelling =>
    cases hpoint : e.pointReached with
    | true =>
      by_cases hflight : s.cancelPassed e.id
      · exact .inr (.inr (.inl ⟨rfl, rfl, hflight⟩))
      · exact .inl (.inr ⟨hstate, .inl ⟨hpoint, hflight⟩⟩)
    | false =>
      by_cases hset : e.armedSet = none
      · exact .inl (.inr ⟨hstate, .inr ⟨hpoint, hset⟩⟩)
      · exact .inr (.inl ⟨rfl, rfl, hset⟩)

/-- What the answer to a deadline leaves of what a firing reads: the outputs, and what has fired in the period. -/
structure State.KeepsFirings (s t : State) : Prop where
  ctl : t.ctl = s.ctl
  outputs : t.table.outputs = s.table.outputs
  firedNow : t.table.firedNow = s.table.firedNow
  firedOutputs : t.table.firedOutputs = s.table.firedOutputs

theorem keepsFirings_refl (s : State) : s.KeepsFirings s := ⟨rfl, rfl, rfl, rfl⟩

theorem State.KeepsFirings.trans (h : s.KeepsFirings t) (h' : t.KeepsFirings u) : s.KeepsFirings u :=
  ⟨h'.ctl.trans h.ctl, h'.outputs.trans h.outputs, h'.firedNow.trans h.firedNow, h'.firedOutputs.trans h.firedOutputs⟩

theorem State.CutFor.keepsFirings (h : s.CutFor id t) : s.KeepsFirings t := by
  constructor <;> simp only [h.ctl, h.table]

theorem queueReports_keepsFirings (ks : List ReportKind) (s : State) : s.KeepsFirings (queueReports ks s) := by
  rw [queueReports_eq]
  exact ⟨rfl, rfl, rfl, rfl⟩

theorem answerDeadline_scope (e : Entry) (s : State) :
    s.WorksAt e.id (answerDeadline e s) ∧ s.KeepsFirings (answerDeadline e s) := by
  rcases answerDeadline_cases e s with h | ⟨hstate, hpoint, hset⟩ | ⟨hstate, hpoint, hflight⟩ | h
  · obtain ⟨v, hv, heq⟩ := answerDeadline_removes h
    have hremoved : v.KeepsFirings (removeEntry e.id v) := ⟨rfl, rfl, rfl, rfl⟩
    rw [heq]
    exact ⟨hv.works.trans ((removeEntry_worksAt ..).trans (queueReports_worksAt ..)),
      hv.keepsFirings.trans (hremoved.trans (queueReports_keepsFirings ..))⟩
  · obtain ⟨v, hv, heq⟩ := answerDeadline_returns (s := s) hstate hpoint hset
    have hput : v.WorksAt e.id (putEntry e.rearmed v) := putEntry_worksAt e.rearmed v
    rw [heq]
    exact ⟨hv.works.trans (hput.trans (worksAt_of_same _ rfl rfl rfl)), hv.keepsFirings.trans ⟨rfl, rfl, rfl, rfl⟩⟩
  · rw [answerDeadline_waits hstate hpoint hflight]
    exact ⟨putEntry_worksAt { e with finalAwaited := true } s, rfl, rfl, rfl, rfl⟩
  · rw [h]
    exact ⟨worksAt_of_same _ rfl rfl rfl, keepsFirings_refl s⟩

theorem answerPassedDeadlines_scope (s : State) :
    (answerPassedDeadlines s).now = s.now ∧ s.KeepsFirings (answerPassedDeadlines s) :=
  List.foldlRecOn (motive := fun t => t.now = s.now ∧ s.KeepsFirings t) _ _ ⟨rfl, keepsFirings_refl s⟩
    fun t ⟨hnow, hkeeps⟩ e _ =>
      ⟨(answerDeadline_scope e t).1.now.trans hnow, hkeeps.trans (answerDeadline_scope e t).2⟩

theorem answerPassedDeadlines_idsOnce (h : s.idsOnce) : (answerPassedDeadlines s).idsOnce :=
  foldl_idsOnce (fun s e => (answerDeadline_scope e s).1) _ h

/-- An entry whose deadline does not stand before its due stays at that stage (R115). -/
theorem answerPassedDeadlines_unanswered (h : s.idsOnce) (he : e ∈ s.table.entries) (hpassed : ¬s.deadlineBeforeDue e = true) :
    (answerPassedDeadlines s).entry? e.id = some e := by
  refine (foldl_entry?_other (fun s e => (answerDeadline_scope e s).1) (fun hmem => ?_) s).trans (entry?_of_mem h he)
  obtain ⟨x, hx, hid⟩ := List.mem_map.1 hmem
  obtain ⟨hx, hdeadline⟩ := List.mem_filter.1 hx
  rw [eq_of_id h hx he hid] at hdeadline
  exact hpassed hdeadline

/-- An entry whose deadline stands before its due is as its answer leaves it (R115). -/
theorem answerPassedDeadlines_answered (h : s.idsOnce) (he : e ∈ s.table.entries) (hpassed : s.deadlineBeforeDue e = true) :
    ∃ u, (u.cancelPassed e.id ↔ s.cancelPassed e.id)
      ∧ (answerPassedDeadlines s).entry? e.id = (answerDeadline e u).entry? e.id := by
  obtain ⟨u, _, hflight, hu⟩ :=
    foldl_entry?_at (f := fun s e => answerDeadline e s) (fun s e => (answerDeadline_scope e s).1)
      (List.Nodup.sublist (List.filter_sublist.map Entry.id) h) (List.mem_filter.2 ⟨he, hpassed⟩) s
  exact ⟨u, hflight, hu⟩

/-- The entry of an id behind the passed deadlines of a forward step: removed, returned to ARMED, or waiting for its last outcome. -/
theorem answerPassedDeadlines_entry? (h : s.idsOnce) (he : e ∈ s.table.entries) (hpassed : s.deadlineBeforeDue e = true) :
    (s.endsAtDeadline e → (answerPassedDeadlines s).entry? e.id = none)
      ∧ (e.state = .cancelling → e.pointReached = false → e.armedSet ≠ none →
        (answerPassedDeadlines s).entry? e.id = some e.rearmed)
      ∧ (e.state = .cancelling → e.pointReached = true → s.cancelPassed e.id →
        (answerPassedDeadlines s).entry? e.id = some { e with finalAwaited := true }) := by
  obtain ⟨u, hflight, hu⟩ := answerPassedDeadlines_answered h he hpassed
  rw [hu]
  refine ⟨fun hends => ?_, fun hstate hpoint hset => ?_, fun hstate hpoint hcancel => ?_⟩
  · obtain ⟨v, _, heq⟩ := answerDeadline_removes (s := u) (e := e) (by rwa [State.endsAtDeadline, hflight])
    rw [heq, queueReports_eq]
    exact removeEntry_entry?_same e.id v
  · obtain ⟨v, _, heq⟩ := answerDeadline_returns (s := u) hstate hpoint hset
    rw [heq]
    exact putEntry_entry?_same e.rearmed v
  · rw [answerDeadline_waits hstate hpoint (hflight.2 hcancel)]
    exact putEntry_entry?_same { e with finalAwaited := true } u

/-! ### A forward step's events at the table -/

/-- The events that a forward step has passed: the deadlines, then the dues (R115, R122). -/
def lateEvents (s : State) : State := fireAllLate (answerPassedDeadlines s)

/-- What the late firings leave of an entry behind its deadline (R122). -/
def State.lateOutcome (s : State) (x : Entry) : Option Entry :=
  if x.state = .armed ∧ x.due ≤ s.now ∧ x.id ∉ s.table.firedNow then x.firedLate s.now else some x

theorem lateEvents_entry? (h : s.idsOnce) (id : ActionId) :
    (lateEvents s).entry? id = ((answerPassedDeadlines s).entry? id).bind s.lateOutcome := by
  obtain ⟨hnow, hkeeps⟩ := answerPassedDeadlines_scope s
  rw [lateEvents, fireAllLate_entry? (answerPassedDeadlines_idsOnce h)]
  congr 1
  funext x
  simp only [isDue_iff, State.lateOutcome, hnow, hkeeps.firedNow]

/-! ### The notice -/

/-- What the notice itself leaves, before the events it has passed: it is taken, and the latch and the pulse ends are shifted (R51, R121). -/
def State.noticed (st : TimeStep) (s : State) : State := shiftPulses st.amount (shiftLatch st.amount (takeNotice st s))

/-- The state on which the passed events are taken: STEPPED stands before their reports, or not yet. -/
def State.noticedWith (steppedFirst : Bool) (st : TimeStep) (s : State) : State :=
  if steppedFirst then queueReport (.stepped st.amount st.cause) (s.noticed st) else s.noticed st

theorem roundsNotice_table (s : State) : (roundsNotice s).table = s.table := by
  unfold roundsNotice
  split <;> rfl

theorem roundsNotice_reports (s : State) : (roundsNotice s).reports = s.reports := by
  unfold roundsNotice
  split <;> rfl

/-- A forward step's notice (R48, R122): the passed events, with STEPPED before or behind their reports. -/
theorem stepNotice_forward (first : Bool) (h : s.base.notice = some ⟨st, true⟩) (hforward : 0 < st.amount) :
    stepNotice first s =
      roundsNotice
        (if first then lateEvents (s.noticedWith first st)
        else queueReport (.stepped st.amount st.cause) (lateEvents (s.noticedWith first st))) := by
  have hdue : s.noticeDue = some st := by simp [State.noticeDue, h]
  cases first <;> simp only [stepNotice, hdue, tableNotice, if_pos hforward] <;> rfl

theorem lateEvents_empty (h : s.table.entries = []) : lateEvents s = s := by
  have hanswered : answerPassedDeadlines s = s := by simp [answerPassedDeadlines, h]
  simp [lateEvents, hanswered, fireAllLate, h]

/-- A backward step's notice, or one that meets an empty table (R48, R121): the shifts and STEPPED. -/
theorem stepNotice_quiet (first : Bool) (h : s.base.notice = some ⟨st, true⟩) (hquiet : st.amount ≤ 0 ∨ s.table.entries = []) :
    stepNotice first s = roundsNotice (queueReport (.stepped st.amount st.cause) (s.noticed st)) := by
  have hdue : s.noticeDue = some st := by simp [State.noticeDue, h]
  by_cases hforward : 0 < st.amount
  · have hentries : s.table.entries = [] := hquiet.resolve_left (Int.not_le.2 hforward)
    have hevents : lateEvents (s.noticedWith first st) = s.noticedWith first st :=
      lateEvents_empty (by cases first <;> exact hentries)
    rw [stepNotice_forward first h hforward, hevents]
    cases first <;> rfl
  · cases first <;> simp only [stepNotice, hdue, tableNotice, if_neg hforward] <;> rfl

theorem stepNotice_table (first : Bool) (h : s.base.notice = some ⟨st, true⟩) (hforward : 0 < st.amount) :
    (stepNotice first s).table = (lateEvents (s.noticedWith first st)).table := by
  rw [stepNotice_forward first h hforward, roundsNotice_table]
  cases first <;> rfl

/-- The notice leaves what the passed deadlines and dues are judged by. -/
theorem noticedWith_lateOutcome (first : Bool) (st : TimeStep) (s : State) : (s.noticedWith first st).lateOutcome = s.lateOutcome := by
  cases first <;> rfl

theorem noticedWith_deadline (first : Bool) (st : TimeStep) (s : State) (e : Entry) :
    (s.noticedWith first st).deadlineBeforeDue e = s.deadlineBeforeDue e := by
  cases first <;> rfl

theorem noticedWith_cancelPassed (first : Bool) (st : TimeStep) (s : State) (id : ActionId) :
    (s.noticedWith first st).cancelPassed id ↔ s.cancelPassed id := by
  cases first <;> rfl

theorem noticedWith_entries (first : Bool) (st : TimeStep) (s : State) :
    (s.noticedWith first st).table.entries = s.table.entries := by
  cases first <;> rfl

/-- A forward step at one entry of the table (R115, R122): its deadline first where that stands before its due, then its late firing. -/
theorem forwardStep_entry? (first : Bool) (h : s.base.notice = some ⟨st, true⟩) (hforward : 0 < st.amount) (honce : s.idsOnce)
    (he : e ∈ s.table.entries) :
    (¬s.deadlineBeforeDue e = true → (stepNotice first s).entry? e.id = s.lateOutcome e)
      ∧ (s.deadlineBeforeDue e = true →
        (s.endsAtDeadline e → (stepNotice first s).entry? e.id = none)
          ∧ (e.state = .cancelling → e.pointReached = false → e.armedSet ≠ none →
            (stepNotice first s).entry? e.id = s.lateOutcome e.rearmed)
          ∧ (e.state = .cancelling → e.pointReached = true → s.cancelPassed e.id →
            (stepNotice first s).entry? e.id = some { e with finalAwaited := true })) := by
  have honce' : (s.noticedWith first st).idsOnce := by rwa [State.idsOnce, noticedWith_entries]
  have he' : e ∈ (s.noticedWith first st).table.entries := by rwa [noticedWith_entries]
  have hentry : (stepNotice first s).entry? e.id = ((answerPassedDeadlines (s.noticedWith first st)).entry? e.id).bind s.lateOutcome := by
    rw [State.entry?, stepNotice_table first h hforward, ← noticedWith_lateOutcome first st s]
    exact lateEvents_entry? honce' e.id
  rw [hentry, ← noticedWith_deadline first st s e]
  refine ⟨fun hpassed => ?_, fun hpassed => ?_⟩
  · rw [answerPassedDeadlines_unanswered honce' he' hpassed, Option.bind_some]
  · obtain ⟨hremoves, hreturns, hwaits⟩ := answerPassedDeadlines_entry? honce' he' hpassed
    refine ⟨fun hends => ?_, fun hstate hpoint hset => ?_, fun hstate hpoint hflight => ?_⟩
    · rw [hremoves (by rwa [State.endsAtDeadline, noticedWith_cancelPassed]), Option.bind_none]
    · rw [hreturns hstate hpoint hset, Option.bind_some]
    · rw [hwaits hstate hpoint ((noticedWith_cancelPassed ..).2 hflight), Option.bind_some]
      simp [State.lateOutcome, hstate]

/-! ### A forward step with one entry -/

/-- A report of the period at the end of a queue. -/
def State.joined (s : State) (k : ReportKind) (q : List Report) : List Report :=
  joinQueue 32 Report.lose ⟨k, s.now, s.ctl.state, 0⟩ q

theorem answerPassedDeadlines_single (hentries : s.table.entries = [e]) :
    answerPassedDeadlines s = if s.deadlineBeforeDue e then answerDeadline e s else s := by
  cases hdue : s.deadlineBeforeDue e <;> simp [answerPassedDeadlines, hentries, hdue]

theorem fireAllLate_single (hentries : s.table.entries = [x]) :
    fireAllLate s = if s.isDue x then fire true x s else s := by
  cases hdue : s.isDue x <;> simp [fireAllLate, hentries, hdue]

/-- A single entry that is ARMED, or that its deadline returns to ARMED, fires late (R122, R146). -/
theorem lateEvents_fires (hentries : s.table.entries = [e]) (hdue : e.due ≤ s.now) (hfired : s.table.firedNow = [])
    (h : e.state = .armed ∨ s.deadlineDue e = true ∧ e.state = .cancelling ∧ e.pointReached = false ∧ e.armedSet ≠ none) :
    ∃ v x, lateEvents s = fire true x v ∧ (x = e ∨ x = e.rearmed) ∧ v.now = s.now ∧ s.KeepsFirings v
      ∧ v.reports.records =
        if e.state = .cancelling then s.joined (.cancelLate e.id .deadline) s.reports.records else s.reports.records := by
  rcases h with hstate | ⟨hdeadline, hstate, hpoint, hset⟩
  · have hpassed : ¬s.deadlineBeforeDue e = true := by simp [State.deadlineBeforeDue, State.deadlineDue, hstate]
    refine ⟨s, e, ?_, .inl rfl, rfl, keepsFirings_refl s, (if_neg (by simp [hstate])).symm⟩
    rw [lateEvents, answerPassedDeadlines_single hentries, if_neg hpassed, fireAllLate_single hentries,
      if_pos (isDue_iff.2 ⟨hstate, hdue, by simp [hfired]⟩)]
  · have hpassed : s.deadlineBeforeDue e = true := by simp [State.deadlineBeforeDue, hdeadline, hdue]
    obtain ⟨v, hv, heq⟩ := answerDeadline_returns (s := s) hstate hpoint hset
    obtain ⟨hworks, hkeeps⟩ := answerDeadline_scope e s
    refine ⟨answerDeadline e s, e.rearmed, ?_, .inr rfl, hworks.now, hkeeps, ?_⟩
    · have hleft : (answerDeadline e s).table.entries = [e.rearmed] := by
        rw [heq]
        show insertEntry e.rearmed (dropEntry e.id v.table.entries) = _
        rw [hv.table, hentries]
        simp [dropEntry, insertEntry]
      rw [lateEvents, answerPassedDeadlines_single hentries, if_pos hpassed, fireAllLate_single hleft, if_pos]
      refine isDue_iff.2 ⟨rfl, ?_, by simp [hkeeps.firedNow, hfired]⟩
      rw [hworks.now]
      exact hdue
    · rw [if_pos hstate, heq]
      show v.joined (.cancelLate e.id .deadline) v.reports.records = _
      rw [hv.reports, State.joined, hv.works.now, hv.ctl, State.joined]

/-- A single entry whose deadline removes it leaves the table empty, with the reports of that deadline (R122, R136, R140, R146). -/
theorem lateEvents_removes (hentries : s.table.entries = [e]) (hdue : e.due ≤ s.now) (hdeadline : s.deadlineDue e = true)
    (hends : s.endsAtDeadline e) :
    (lateEvents s).table.entries = [] ∧ (lateEvents s).table.outputs = s.table.outputs
      ∧ (lateEvents s).reports.records = e.deadlineReports.foldl (fun q k => s.joined k q) s.reports.records := by
  have hpassed : s.deadlineBeforeDue e = true := by simp [State.deadlineBeforeDue, hdeadline, hdue]
  obtain ⟨v, hv, heq⟩ := answerDeadline_removes hends
  obtain ⟨_, hkeeps⟩ := answerDeadline_scope e s
  have hanswered : answerPassedDeadlines s = answerDeadline e s := by
    rw [answerPassedDeadlines_single hentries, if_pos hpassed]
  have hempty : (answerDeadline e s).table.entries = [] := by
    rw [heq, queueReports_eq]
    show dropEntry e.id v.table.entries = []
    rw [hv.table, hentries]
    simp [dropEntry]
  have hlate : lateEvents s = answerDeadline e s := by simp [lateEvents, hanswered, fireAllLate, hempty]
  rw [hlate]
  refine ⟨hempty, hkeeps.outputs, ?_⟩
  rw [heq, queueReports_eq]
  show e.deadlineReports.foldl (fun q k => v.joined k q) v.reports.records = _
  simp only [State.joined, hv.reports, hv.works.now, hv.ctl]

theorem fire_ctl (e : Entry) (s : State) : (fire true e s).ctl = s.ctl := by
  unfold fire fireEntry fireReport
  split <;> split <;> rfl

theorem fire_outputs (e : Entry) (s : State) :
    (fire true e s).table.outputs = s.table.outputs.set e.output ((s.pulseEnded e.output).apply e.edge (e.newEnd true s.now)) := by
  unfold fire fireEntry fireReport
  split <;> split <;> rfl

/-- The reports of a late firing (R118, R122): ACTION_FIRED in the report mode EACH, then ACTION_DONE where the entry ends. -/
def State.firedRecords (s : State) (e : Entry) (q : List Report) : List Report :=
  let reported := if e.mode = .each then s.joined (e.firedReport true s.now s.ctl.state) q else q
  if (e.planLate s.now).ends then s.joined (.actionDone e.id) reported else reported

theorem fireReport_records (e : Entry) (s : State) :
    (fireReport true e s).reports.records =
      if e.mode = .each then s.joined (e.firedReport true s.now s.ctl.state) s.reports.records else s.reports.records := by
  unfold fireReport
  split <;> rfl

theorem fireReport_stamp (e : Entry) (s : State) : (fireReport true e s).now = s.now ∧ (fireReport true e s).ctl = s.ctl := by
  unfold fireReport
  split <;> exact ⟨rfl, rfl⟩

theorem fireEntry_records (e : Entry) (s : State) :
    (fireEntry true e s).reports.records =
      if (e.planLate s.now).ends then s.joined (.actionDone e.id) s.reports.records else s.reports.records :=
  apply_ite (fun t : State => t.reports.records) ..

theorem fire_records (e : Entry) (s : State) : (fire true e s).reports.records = s.firedRecords e s.reports.records := by
  obtain ⟨hnow, hctl⟩ := fireReport_stamp e (markFired e (fireOutput true e s))
  rw [fire, fireEntry_records, fireReport_records, State.joined, hnow, hctl]
  rfl

/-- The passed events keep what reports are stamped with. -/
theorem lateEvents_stamp (s : State) : (lateEvents s).now = s.now ∧ (lateEvents s).ctl = s.ctl := by
  obtain ⟨hnow, hkeeps⟩ := answerPassedDeadlines_scope s
  exact List.foldlRecOn (motive := fun t : State => t.now = s.now ∧ t.ctl = s.ctl) _ _ ⟨hnow, hkeeps.ctl⟩ fun t ⟨hnow, hctl⟩ e _ =>
    ⟨(fire_worksAt true e t).now.trans hnow, (fire_ctl e t).trans hctl⟩

/-- STEPPED stands before the reports of the passed events, or behind them all. -/
theorem stepNotice_records (first : Bool) (h : s.base.notice = some ⟨st, true⟩) (hforward : 0 < st.amount) :
    (stepNotice first s).reports.records =
      if first then (lateEvents (s.noticedWith first st)).reports.records
      else s.joined (.stepped st.amount st.cause) (lateEvents (s.noticedWith first st)).reports.records := by
  rw [stepNotice_forward first h hforward, roundsNotice_reports]
  cases first with
  | true => rfl
  | false =>
    obtain ⟨hnow, hctl⟩ := lateEvents_stamp (s.noticedWith false st)
    show (lateEvents (s.noticedWith false st)).joined _ _ = _
    rw [State.joined, hnow, hctl]
    rfl

theorem noticedWith_records (first : Bool) (st : TimeStep) (s : State) :
    (s.noticedWith first st).reports.records =
      if first then s.joined (.stepped st.amount st.cause) s.reports.records else s.reports.records := by
  cases first <;> rfl

theorem noticedWith_outputs (first : Bool) (st : TimeStep) (s : State) :
    (s.noticedWith first st).table.outputs = s.table.outputs.map (Output.shift st.amount) := by
  cases first <;> rfl

theorem noticedWith_joined (first : Bool) (st : TimeStep) (s : State) : (s.noticedWith first st).joined = s.joined := by
  cases first <;> rfl

/-- The reports of one forward step stand in their order, with those of STEPPED on one side (notes/assumptions/17.md). -/
theorem stepNotice_records_of (first : Bool) (h : s.base.notice = some ⟨st, true⟩) (hforward : 0 < st.amount)
    {events : List Report → List Report}
    (hevents : (lateEvents (s.noticedWith first st)).reports.records = events (s.noticedWith first st).reports.records) :
    (stepNotice first s).reports.records =
      if first then events (s.joined (.stepped st.amount st.cause) s.reports.records)
      else s.joined (.stepped st.amount st.cause) (events s.reports.records) := by
  rw [stepNotice_records first h hforward, hevents, noticedWith_records]
  cases first <;> rfl

/-- A forward step with one entry that fires (R119, R122). -/
theorem forwardStep_fires (first : Bool) (h : s.base.notice = some ⟨st, true⟩) (hforward : 0 < st.amount)
    (hentries : s.table.entries = [e]) (hdue : e.due ≤ s.now) (hfired : s.table.firedNow = []) (houtputs : s.table.firedOutputs = [])
    (hfires : e.state = .armed ∨ s.deadlineDue e = true ∧ e.state = .cancelling ∧ e.pointReached = false ∧ e.armedSet ≠ none) :
    (stepNotice first s).table.outputs =
        (s.table.outputs.map (Output.shift st.amount)).set e.output
          ((((s.output e.output).shift st.amount).endPulse s.now).apply e.edge (e.newEnd true s.now))
      ∧ (stepNotice first s).reports.records =
        let returned (q : List Report) := if e.state = .cancelling then s.joined (.cancelLate e.id .deadline) q else q
        if first then s.firedRecords e (returned (s.joined (.stepped st.amount st.cause) s.reports.records))
        else s.joined (.stepped st.amount st.cause) (s.firedRecords e (returned s.reports.records)) := by
  obtain ⟨v, x, hlate, hx, hnow, hkeeps, hrecords⟩ :=
    lateEvents_fires (s := s.noticedWith first st) (e := e) (by rwa [noticedWith_entries])
      (by cases first <;> exact hdue) (by cases first <;> exact hfired) (by cases first <;> exact hfires)
  have hvnow : v.now = s.now := hnow.trans (by cases first <;> rfl)
  have hvctl : v.ctl = s.ctl := hkeeps.ctl.trans (by cases first <;> rfl)
  have hvoutputs : v.table.outputs = s.table.outputs.map (Output.shift st.amount) :=
    hkeeps.outputs.trans (noticedWith_outputs ..)
  have hended : v.pulseEnded e.output = ((s.output e.output).shift st.amount).endPulse s.now := by
    have hnone : v.table.firedOutputs = [] := hkeeps.firedOutputs.trans (by cases first <;> exact houtputs)
    simp [State.pulseEnded, hnone, State.output, hvoutputs, hvnow]
  refine ⟨?_, stepNotice_records_of first h hforward
    (events := fun q => s.firedRecords e (if e.state = .cancelling then s.joined (.cancelLate e.id .deadline) q else q)) ?_⟩
  · rw [stepNotice_table first h hforward, hlate, fire_outputs, hvoutputs]
    rcases hx with rfl | rfl
    · rw [hended, hvnow]
    · show (s.table.outputs.map _).set e.output ((v.pulseEnded e.output).apply e.edge (e.newEnd true v.now)) = _
      rw [hended, hvnow]
  · have hfiredRecords : v.firedRecords x = s.firedRecords e := by
      have hcongr : v.firedRecords x = s.firedRecords x := by
        funext q
        simp only [State.firedRecords, State.joined, hvnow, hvctl]
      rcases hx with rfl | rfl <;> exact hcongr
    rw [hlate, fire_records, hfiredRecords, hrecords, noticedWith_joined]

/-- A forward step with one entry that its deadline removes. -/
theorem forwardStep_removes (first : Bool) (h : s.base.notice = some ⟨st, true⟩) (hforward : 0 < st.amount)
    (hentries : s.table.entries = [e]) (hdue : e.due ≤ s.now) (hdeadline : s.deadlineDue e = true) (hends : s.endsAtDeadline e) :
    (stepNotice first s).table.entries = [] ∧ (stepNotice first s).table.outputs = s.table.outputs.map (Output.shift st.amount)
      ∧ (stepNotice first s).reports.records =
        let removed (q : List Report) := e.deadlineReports.foldl (fun q k => s.joined k q) q
        if first then removed (s.joined (.stepped st.amount st.cause) s.reports.records)
        else s.joined (.stepped st.amount st.cause) (removed s.reports.records) := by
  obtain ⟨hempty, houtputs, hrecords⟩ :=
    lateEvents_removes (s := s.noticedWith first st) (e := e) (by rwa [noticedWith_entries])
      (by cases first <;> exact hdue) (by cases first <;> exact hdeadline)
      (by rwa [State.endsAtDeadline, noticedWith_cancelPassed])
  refine ⟨?_, ?_, stepNotice_records_of first h hforward (events := fun q => e.deadlineReports.foldl (fun q k => s.joined k q) q) ?_⟩
  · rw [stepNotice_table first h hforward, hempty]
  · rw [stepNotice_table first h hforward, houtputs, noticedWith_outputs]
  · rw [hrecords, noticedWith_joined]

/-! ### The obligation -/

/-- The skipped field up to 65,535 is the number itself (R118). -/
theorem skippedField_of_le {n : Nat} (h : n ≤ 65535) : skippedField n = BitVec.ofNat 16 n := if_pos h

/-- The reports of a late firing, written out. -/
theorem firedRecords_eq (s : State) (hskip : (e.planLate s.now).skip ≤ 65535) (q : List Report) :
    s.firedRecords e q =
      let flags : FiringFlags :=
        ⟨true, s.ctl.state == .holdover, s.ctl.state == .listen || s.ctl.state == .joining || s.ctl.state == .fault⟩
      let fired :=
        if e.mode = .each then
          s.joined
            (.actionFired e.id (min 65535 (e.fired + e.skipped + 1)) (s.now - e.due) flags
              (BitVec.ofNat 16 (e.planLate s.now).skip)) q
        else q
      if (e.planLate s.now).ends then s.joined (.actionDone e.id) fired else fired := by
  have hreport :
      e.firedReport true s.now s.ctl.state =
        .actionFired e.id (min 65535 (e.fired + e.skipped + 1)) (s.now - e.due)
          ⟨true, s.ctl.state == .holdover, s.ctl.state == .listen || s.ctl.state == .joining || s.ctl.state == .fault⟩
          (BitVec.ofNat 16 (e.planLate s.now).skip) := by
    rw [← skippedField_of_le hskip, ← unsynced_eq]
    cases hstate : s.ctl.state <;> rfl
  rw [State.firedRecords, hreport]

theorem endsAtDeadline_of_marks
    (h : e.state ∈ [.pending, .committing, .held] ∨ e.state = .cancelling ∧ (∃ r, e.marks = some ⟨r, false⟩) ∧ e.armedSet = none
      ∨ e.state = .cancelling ∧ (∃ r, e.marks = some ⟨r, true⟩)
        ∧ ∀ need out f, s.sends need out f → need.source = .entry e.id → need.kind = .cancel → f.checkPoint = false) :
    s.endsAtDeadline e := by
  rcases h with hstate | ⟨hstate, ⟨r, hmarks⟩, hset⟩ | ⟨hstate, hpoint, hflight⟩
  · exact .inl hstate
  · exact .inr ⟨hstate, .inr ⟨pointReached_marks hmarks, hset⟩⟩
  · refine .inr ⟨hstate, .inl ⟨pointReached_iff.2 hpoint, ?_⟩⟩
    rintro ⟨need, out, f, hsends, hsource, hkind, hpassed⟩
    simp [hflight need out f hsends hsource hkind] at hpassed

theorem deadlineReports_proposal (h : e.state = .pending ∨ e.state = .committing) :
    e.deadlineReports = [.proposalFailed e.id e.missing .late] := if_pos h

theorem deadlineReports_held (h : e.state = .held) : e.deadlineReports = [.heldExpired e.id] := by
  simp [Entry.deadlineReports, h]

/-- A cancel that ends behind its cancel point reports the stations it has not reached, where it was committed (R146). -/
theorem deadlineReports_ended {r : CancelReason} (hstate : e.state = .cancelling) (hmarks : e.marks = some ⟨r, true⟩) :
    e.deadlineReports = if e.armedSet = none then [] else if e.missing = 0 then [] else [.cancelIncomplete e.id e.missing] := by
  have hends : e.deadlineReports = e.incompleteReports := by
    simp [Entry.deadlineReports, hstate, pointReached_marks hmarks]
  rw [hends, Entry.incompleteReports]
  by_cases hset : e.armedSet = none
  · simp [Entry.committed, hset]
  · simp [committed_iff.2 hset, covered_iff, ← Bool.not_eq_true, hset, ite_not]

/-- An uncommitted cancel that ends before its cancel point is reported to the host that asked for it (R146). -/
theorem deadlineReports_uncommitted {r : CancelReason} (hstate : e.state = .cancelling) (hmarks : e.marks = some ⟨r, false⟩) :
    e.deadlineReports = if r = .host then [.actionCancelled e.id] else [] := by
  simp [Entry.deadlineReports, hstate, pointReached_marks hmarks, byHost_marks hmarks]

/-- The reset of the rounds, written out (R77). -/
theorem resetRounds_eq (s : State) :
    resetRounds s =
      { s with
        rounds :=
          { s.rounds with
            active := true
            round := roundOf s.cfg s.now
            windowOpen := decide (s.now.toNat < closePoint s.cfg (roundOf s.cfg s.now))
            samples := []
            syncSent := true
            joinRun := 0 }
        peers := s.peers.map fun p => { p with sample := none }
        engine.needs := s.engine.needs.filter fun n => n.source != .roundEngine } := rfl

/-- Settles O44: a forward step by what its passed events leave of each entry and, for a single entry, of the outputs and the reports; every
other notice by the shifts alone. -/
theorem stepNoticeShiftsTheScale : Obligations.StepNoticeShiftsTheScale := by
  refine ⟨fun s first st h hforward honce => ⟨_, exec_stepNotice first s, fun e he => ?_⟩,
    fun s first st e h hforward hentries hdue hfired houtputs hskip => ⟨fun hfires => ⟨_, exec_stepNotice first s, ?_⟩,
      fun hdeadline hends => ⟨_, exec_stepNotice first s, ?_⟩⟩, fun s first st h hquiet => ?_⟩
  · obtain ⟨hstays, hanswered⟩ := forwardStep_entry? first h hforward honce he
    refine ⟨hstays, fun hpassed hstate => ?_, fun hpassed hstate => ?_⟩
    · exact (hanswered hpassed).1 (.inl (by simpa using hstate))
    · obtain ⟨hremoves, hreturns, hwaits⟩ := hanswered hpassed
      refine ⟨fun hpoint hflight => ?_, fun hpoint hflight => ?_, fun hpoint hset => ?_, fun hpoint hset => ?_⟩
      · exact hwaits hstate (pointReached_iff.2 hpoint) hflight
      · exact hremoves (.inr ⟨hstate, .inl ⟨pointReached_iff.2 hpoint, hflight⟩⟩)
      · exact hremoves (.inr ⟨hstate, .inr ⟨Bool.not_eq_true _ ▸ mt pointReached_iff.1 hpoint, hset⟩⟩)
      · exact hreturns hstate (Bool.not_eq_true _ ▸ mt pointReached_iff.1 hpoint) hset
  · have hfires' :
        e.state = .armed ∨ s.deadlineDue e = true ∧ e.state = .cancelling ∧ e.pointReached = false ∧ e.armedSet ≠ none := by
      refine hfires.imp_right ?_
      rintro ⟨hdeadline, hstate, hset, r, hmarks⟩
      exact ⟨hdeadline, hstate, pointReached_marks hmarks, hset⟩
    obtain ⟨houts, hrecords⟩ := forwardStep_fires first h hforward hentries hdue hfired houtputs hfires'
    simp only [firedRecords_eq s hskip] at hrecords
    exact ⟨houts, hrecords⟩
  · obtain ⟨hempty, houts, hrecords⟩ := forwardStep_removes first h hforward hentries hdue hdeadline (endsAtDeadline_of_marks hends)
    refine ⟨hempty, houts, hrecords.trans ?_⟩
    have hmissing : e.missing = e.required.getD 0 &&& ~~~(e.acked.getD 0) := rfl
    rw [← hmissing]
    rcases hends with hstate | ⟨hstate, ⟨r, hmarks⟩, hset⟩ | ⟨hstate, ⟨r, hmarks⟩, hflight⟩
    · simp only [List.mem_cons, List.not_mem_nil, or_false, ← or_assoc] at hstate
      rcases hstate with hstate | hstate
      · rw [deadlineReports_proposal hstate]
        rcases hstate with hstate | hstate <;> simp only [hstate] <;> rfl
      · simp only [deadlineReports_held hstate, hstate]
        rfl
    · simp only [deadlineReports_uncommitted hstate hmarks, hstate, hset, hmarks]
      cases r <;> rfl
    · have hnotHost : e.marks ≠ some ⟨.host, false⟩ := by simp [hmarks]
      simp only [deadlineReports_ended hstate hmarks, hstate, if_neg hnotHost]
      by_cases hset : e.armedSet = none
      · simp only [if_pos hset]
        rfl
      · simp only [if_neg hset]
        by_cases hall : e.missing = 0
        · simp only [if_pos hall]
          rfl
        · simp only [if_neg hall]
          rfl
  · simp only [exec_stepNotice, stepNotice_quiet first h hquiet, roundsNotice]
    refine ⟨fun hpart => ?_, fun hpart => ?_⟩
    · rw [if_neg]
      · rfl
      · show ¬s.ctl.state.takesPart = true
        simp [hpart]
    · rw [if_pos, resetRounds_eq]
      · rfl
      · exact hpart

end Sys2Proof.Machine
end

section
/-! PROOFS. What left notices and the judgement of a close change, and what they leave. -/

namespace Sys2Proof.Machine

variable {s t u : State} {n : Station} {c : Int} {v : Int}

/-! ### Left notices and discards -/

/-- The states differ in the due list, the needs and the reports alone, and `t` holds no need of the Round Engine that `s` does not hold. -/
def State.sameButEntries (s t : State) : Prop :=
  ∃ entries needs age records,
    t = { s with table.entries := entries, engine.needs := needs, engine.nextAge := age, reports.records := records }
      ∧ ∀ need ∈ needs, need.source = .roundEngine → need ∈ s.engine.needs

theorem sameButEntries_refl (s : State) : s.sameButEntries s := ⟨_, _, _, _, rfl, fun _ h _ => h⟩

theorem State.sameButEntries.trans (h : s.sameButEntries t) (h' : t.sameButEntries u) : s.sameButEntries u := by
  obtain ⟨_, _, _, _, rfl, hneeds⟩ := h
  obtain ⟨_, _, _, _, rfl, hneeds'⟩ := h'
  exact ⟨_, _, _, _, rfl, fun need hneed hsource => hneeds need (hneeds' need hneed hsource) hsource⟩

theorem foldl_sameButEntries {α : Type} {f : State → α → State} (hf : ∀ (s : State) a, s.sameButEntries (f s a)) (xs : List α)
    (s : State) :
    s.sameButEntries (xs.foldl f s) :=
  List.foldlRecOn (motive := s.sameButEntries) xs f (sameButEntries_refl s) fun t ht a _ => ht.trans (hf t a)

theorem queueReport_sameButEntries (k : ReportKind) (s : State) : s.sameButEntries (queueReport k s) :=
  ⟨_, _, _, _, rfl, fun _ h _ => h⟩

theorem putEntry_sameButEntries (e : Entry) (s : State) : s.sameButEntries (putEntry e s) := ⟨_, _, _, _, rfl, fun _ h _ => h⟩

theorem removeEntry_sameButEntries (id : ActionId) (s : State) : s.sameButEntries (removeEntry id s) :=
  ⟨_, _, _, _, rfl, fun _ h _ => List.mem_of_mem_filter h⟩

/-- The need that an entry raises is its own (R22). -/
theorem raiseFor_sameButEntries (kind : FrameKind) (e : Entry) (s : State) : s.sameButEntries (raiseFor kind e s) := by
  cases h : discardsNeed s.ctl.state kind with
  | true => rw [raiseFor, raiseNeed_discarded h]; exact sameButEntries_refl s
  | false =>
    rw [raiseFor, raiseNeed_taken h]
    refine ⟨_, _, _, _, rfl, fun need hneed hsource => ?_⟩
    rcases List.mem_append.1 hneed with hold | hnew
    · exact List.mem_of_mem_filter hold
    · obtain rfl := List.mem_singleton.1 hnew
      cases hsource

theorem pruneEntry_sameButEntries (n : Station) (e : Entry) (s : State) : s.sameButEntries (pruneEntry n e s) := by
  rcases pruneEntry_cases n e s with ⟨_, _, he⟩ | ⟨_, he⟩ <;> rw [he]
  · exact (putEntry_sameButEntries ..).trans (raiseFor_sameButEntries ..)
  · exact putEntry_sameButEntries ..

/-- A left notice reaches the due list, the needs of entries and the reports (R133, R141). -/
theorem leftNotice_sameButEntries (n : Station) (s : State) : s.sameButEntries (leftNotice n s) :=
  (foldl_sameButEntries (fun s e => pruneEntry_sameButEntries n e s) _ s).trans
    (foldl_sameButEntries (fun s (e : Entry) => (removeEntry_sameButEntries e.id s).trans (queueReport_sameButEntries ..)) _ _)

theorem discardShared_sameButEntries (s : State) : s.sameButEntries (discardShared s) :=
  (foldl_sameButEntries (fun s (e : Entry) => removeEntry_sameButEntries e.id s) _ s).trans (queueReport_sameButEntries ..)

/-! ### The judgement of one entry -/

/-- A present entry without a sample at a close (R65). -/
theorem judgePeer_unsampled (hpresent : (s.peer n).present = true) (hsample : (s.peer n).sample = none) :
    judgePeer c n s =
      if 2 ≤ (s.peer n).missRun then dropPeer n .misses s
      else setPeer n { s.peer n with missRun := (s.peer n).missRun + 1 } s := by
  simp [judgePeer, hpresent, hsample, countMiss]

theorem judgePeer_absent (hpresent : (s.peer n).present = false) : judgePeer c n s = s := by simp [judgePeer, hpresent]

/-- A member with a sample at a close (R66). -/
theorem judgePeer_member (hpresent : (s.peer n).present = true) (hsample : (s.peer n).sample = some v)
    (hmember : (s.peer n).member = true) :
    let p := s.peer n
    judgePeer c n s =
      if exceeds (v - c) s.cfg.syncTolerance then
        if 3 ≤ p.outlierRun then
          leftNotice n
            (queueReport (.peerDropped n .suspect)
              (setPeer n { p with missRun := 0, outlierRun := 4, suspect := true, member := false, goodRun := 0 } s))
        else setPeer n { p with missRun := 0, outlierRun := p.outlierRun + 1 } s
      else setPeer n { p with missRun := 0, outlierRun := 0 } s := by
  simp [judgePeer, hpresent, hsample, hmember, judgeMember, setPeer_setPeer]

/-- A suspect's good close restores it as a member where its last SYNC allows that (R67). -/
def Peer.rejoins (p : Peer) : Bool := (p.reported == some .synced || p.reported == some .holdover) && !p.disagreeing

/-- A suspect with a sample at a close (R67). -/
theorem judgePeer_suspect (hpresent : (s.peer n).present = true) (hsample : (s.peer n).sample = some v)
    (hmember : (s.peer n).member = false) (hsuspect : (s.peer n).suspect = true) :
    let p := s.peer n
    judgePeer c n s =
      if exceeds (v - c) s.cfg.syncTolerance then setPeer n { p with missRun := 0, goodRun := 0 } s
      else if 3 ≤ p.goodRun then
        let t :=
          queueReport (.peerRestored n)
            (setPeer n { p with missRun := 0, suspect := false, outlierRun := 0, goodRun := 0, member := p.rejoins } s)
        if p.rejoins then joinedNotice t else t
      else setPeer n { p with missRun := 0, goodRun := p.goodRun + 1 } s := by
  simp [judgePeer, hpresent, hsample, hmember, hsuspect, judgeSuspect, setPeer_setPeer, Peer.rejoins]

/-- Any other entry with a sample at a close. -/
theorem judgePeer_other (hpresent : (s.peer n).present = true) (hsample : (s.peer n).sample = some v)
    (hmember : (s.peer n).member = false) (hsuspect : (s.peer n).suspect = false) :
    judgePeer c n s = setPeer n { s.peer n with missRun := 0 } s := by
  simp [judgePeer, hpresent, hsample, hmember, hsuspect]

/-! ### What a judgement makes of its entry -/

/-- What a close makes of an entry (R65 to R67), for the sync tolerance and the correction. -/
def Peer.judged (tolerance : Nat) (c : Int) (p : Peer) : Peer :=
  match p.present, p.sample with
  | false, _ => p
  | true, none => if 2 ≤ p.missRun then Peer.absent else { p with missRun := p.missRun + 1 }
  | true, some v =>
    if p.member then
      if exceeds (v - c) tolerance then
        if 3 ≤ p.outlierRun then { p with missRun := 0, outlierRun := 4, suspect := true, member := false, goodRun := 0 }
        else { p with missRun := 0, outlierRun := p.outlierRun + 1 }
      else { p with missRun := 0, outlierRun := 0 }
    else if p.suspect then
      if exceeds (v - c) tolerance then { p with missRun := 0, goodRun := 0 }
      else if 3 ≤ p.goodRun then { p with missRun := 0, suspect := false, outlierRun := 0, goodRun := 0, member := p.rejoins }
      else { p with missRun := 0, goodRun := p.goodRun + 1 }
    else { p with missRun := 0 }

/-- The states differ in the Peer Table and the peered flag, beyond the due list, the needs and the reports, and a station in HOLDOVER may
have returned to SYNCED. -/
def State.sameButVerdicts (s : State) (peers : Vector Peer 16) (t : State) : Prop :=
  ∃ peered state, State.sameButEntries { s with peers := peers, rounds.peered := peered, ctl.state := state } t
    ∧ (state = s.ctl.state ∨ s.ctl.state = .holdover ∧ state = .synced)

theorem setPeer_sameButVerdicts (n : Station) (p : Peer) (s : State) : s.sameButVerdicts (s.peers.set n p) (setPeer n p s) :=
  ⟨_, _, sameButEntries_refl _, .inl rfl⟩

theorem State.sameButVerdicts.entries {peers : Vector Peer 16} (h : s.sameButVerdicts peers t) (h' : t.sameButEntries u) :
    s.sameButVerdicts peers u := by
  obtain ⟨peered, state, ht, hstate⟩ := h
  exact ⟨peered, state, ht.trans h', hstate⟩

theorem State.sameButVerdicts.trans {peers peers' : Vector Peer 16} (h : s.sameButVerdicts peers t) (h' : t.sameButVerdicts peers' u) :
    s.sameButVerdicts peers' u := by
  obtain ⟨peered, state, ⟨_, _, _, _, rfl, hneeds⟩, hstate⟩ := h
  obtain ⟨peered', state', ⟨_, _, _, _, rfl, hneeds'⟩, hstate'⟩ := h'
  refine ⟨peered', state', ⟨_, _, _, _, rfl, fun need hneed hsource => hneeds need (hneeds' need hneed hsource) hsource⟩, ?_⟩
  rcases hstate with rfl | ⟨hholdover, rfl⟩
  · exact hstate'
  · rcases hstate' with rfl | ⟨hsynced, _⟩
    · exact .inr ⟨hholdover, rfl⟩
    · cases hsynced

/-- A joined notice raises the peered flag, or returns the station from HOLDOVER (R64). -/
theorem joinedNotice_sameButVerdicts (s : State) : s.sameButVerdicts s.peers (joinedNotice s) := by
  unfold joinedNotice
  split
  · exact ⟨true, _, sameButEntries_refl _, .inl rfl⟩
  · rename_i hholdover
    exact ⟨s.rounds.peered, .synced, queueReport_sameButEntries _ { s with ctl.state := .synced }, .inr ⟨hholdover, rfl⟩⟩
  all_goals exact ⟨s.rounds.peered, s.ctl.state, sameButEntries_refl s, .inl rfl⟩

theorem dropPeer_sameButVerdicts (n : Station) (cause : DropCause) (s : State) :
    s.sameButVerdicts (s.peers.set n Peer.absent) (dropPeer n cause s) := by
  have hdropped := (setPeer_sameButVerdicts n Peer.absent s).entries (queueReport_sameButEntries (.peerDropped n cause) _)
  unfold dropPeer
  split
  · exact hdropped.entries (leftNotice_sameButEntries n _)
  · exact hdropped

section

variable {p : Peer} (tolerance : Nat)

theorem judged_absent (hpresent : p.present = false) : p.judged tolerance c = p := by simp [Peer.judged, hpresent]

theorem judged_unsampled (hpresent : p.present = true) (hsample : p.sample = none) :
    p.judged tolerance c = if 2 ≤ p.missRun then Peer.absent else { p with missRun := p.missRun + 1 } := by
  simp [Peer.judged, hpresent, hsample]

theorem judged_member (hpresent : p.present = true) (hsample : p.sample = some v) (hmember : p.member = true) :
    p.judged tolerance c =
      if exceeds (v - c) tolerance then
        if 3 ≤ p.outlierRun then { p with missRun := 0, outlierRun := 4, suspect := true, member := false, goodRun := 0 }
        else { p with missRun := 0, outlierRun := p.outlierRun + 1 }
      else { p with missRun := 0, outlierRun := 0 } := by
  simp [Peer.judged, hpresent, hsample, hmember]

theorem judged_suspect (hpresent : p.present = true) (hsample : p.sample = some v) (hmember : p.member = false)
    (hsuspect : p.suspect = true) :
    p.judged tolerance c =
      if exceeds (v - c) tolerance then { p with missRun := 0, goodRun := 0 }
      else if 3 ≤ p.goodRun then { p with missRun := 0, suspect := false, outlierRun := 0, goodRun := 0, member := p.rejoins }
      else { p with missRun := 0, goodRun := p.goodRun + 1 } := by
  simp [Peer.judged, hpresent, hsample, hmember, hsuspect]

theorem judged_other (hpresent : p.present = true) (hsample : p.sample = some v) (hmember : p.member = false)
    (hsuspect : p.suspect = false) : p.judged tolerance c = { p with missRun := 0 } := by
  simp [Peer.judged, hpresent, hsample, hmember, hsuspect]

/-- The five cases of a judgement. -/
theorem judgement_cases (p : Peer) :
    p.present = false ∨ p.present = true
      ∧ (p.sample = none ∨ ∃ v, p.sample = some v
        ∧ (p.member = true ∨ p.member = false ∧ (p.suspect = true ∨ p.suspect = false))) := by
  cases p.present <;> cases p.sample <;> cases p.member <;> cases p.suspect <;> simp

theorem judged_sample (p : Peer) : (p.judged tolerance c).sample = p.sample := by
  rcases judgement_cases p with hpresent | ⟨hpresent, hsample | ⟨v, hsample, hmember | ⟨hmember, hsuspect | hsuspect⟩⟩⟩
  · rw [judged_absent tolerance hpresent]
  · rw [judged_unsampled tolerance hpresent hsample, apply_ite Peer.sample, hsample]
    exact ite_self _
  · rw [judged_member tolerance hpresent hsample hmember]
    simp only [apply_ite Peer.sample, ite_self]
  · rw [judged_suspect tolerance hpresent hsample hmember hsuspect]
    simp only [apply_ite Peer.sample, ite_self]
  · rw [judged_other tolerance hpresent hsample hmember hsuspect]

/-- A judgement leaves a sound entry sound (4.1): its runs stay within their limits, and a restored member is neither suspect nor
disagreeing. -/
theorem judged_sound (h : p.sound) : (p.judged tolerance c).sound := by
  rcases judgement_cases p with hpresent | ⟨hpresent, hsample | ⟨v, hsample, hmember | ⟨hmember, hsuspect | hsuspect⟩⟩⟩
  · rwa [judged_absent tolerance hpresent]
  all_goals obtain ⟨_, hfields, hmiss, houtlier, hgood, hmemberOk, hsuspectOk, hclean⟩ := h
  · rw [judged_unsampled tolerance hpresent hsample]
    split
    · exact ⟨fun _ => rfl, by decide⟩
    · exact ⟨by simp [hpresent], hfields, by simp; omega, houtlier, hgood, hmemberOk, hsuspectOk, hclean⟩
  · obtain ⟨_, hns, _, _⟩ := hmemberOk hmember
    rw [judged_member tolerance hpresent hsample hmember]
    split
    · split
      · exact ⟨by simp [hpresent], hfields, by simp, by simp, by simp, by simp, by simp [hpresent], by simp⟩
      · exact ⟨by simp [hpresent], hfields, by simp, by simp; omega, hgood, hmemberOk, by simp [hns], hclean⟩
    · exact ⟨by simp [hpresent], hfields, by simp, by simp, hgood, hmemberOk, by simp [hns], hclean⟩
  · rw [judged_suspect tolerance hpresent hsample hmember hsuspect]
    split
    · exact ⟨by simp [hpresent], hfields, by simp, houtlier, by simp, hmemberOk, hsuspectOk, by simp⟩
    · split
      · refine ⟨by simp [hpresent], hfields, by simp, by simp, by simp, fun hrejoins => ?_, by simp, by simp⟩
        simpa [Peer.rejoins, hpresent, and_comm] using hrejoins
      · exact ⟨by simp [hpresent], hfields, by simp, houtlier, by simp; omega, hmemberOk, hsuspectOk, by simp [hsuspect]⟩
  · rw [judged_other tolerance hpresent hsample hmember hsuspect]
    exact ⟨by simp [hpresent], hfields, by simp, houtlier, hgood, hmemberOk, hsuspectOk, hclean⟩

end

/-- A judgement writes its own entry, and hands on a notice at most. -/
theorem judgePeer_sameButVerdicts (c : Int) (n : Station) (s : State) :
    s.sameButVerdicts (s.peers.set n ((s.peer n).judged s.cfg.syncTolerance c)) (judgePeer c n s) := by
  have hset (p : Peer) : s.sameButVerdicts (s.peers.set n p) (setPeer n p s) := setPeer_sameButVerdicts n p s
  have hreported (k : ReportKind) (p : Peer) : s.sameButVerdicts (s.peers.set n p) (queueReport k (setPeer n p s)) :=
    (hset p).entries (queueReport_sameButEntries k _)
  rcases judgement_cases (s.peer n) with
    hpresent | ⟨hpresent, hsample | ⟨v, hsample, hmember | ⟨hmember, hsuspect | hsuspect⟩⟩⟩
  · have hsame : s.peers.set n (s.peer n) = s.peers := by simp [State.peer]
    rw [judgePeer_absent hpresent, judged_absent _ hpresent, hsame]
    exact ⟨_, _, sameButEntries_refl s, .inl rfl⟩
  · rw [judgePeer_unsampled hpresent hsample, judged_unsampled _ hpresent hsample]
    split
    · exact dropPeer_sameButVerdicts n .misses s
    · exact hset _
  · rw [judgePeer_member hpresent hsample hmember, judged_member _ hpresent hsample hmember]
    split
    · split
      · exact (hreported _ _).entries (leftNotice_sameButEntries n _)
      · exact hset _
    · exact hset _
  · rw [judgePeer_suspect hpresent hsample hmember hsuspect, judged_suspect _ hpresent hsample hmember hsuspect]
    split
    · exact hset _
    · split
      · extract_lets t
        split
        · exact (hreported _ _).trans (joinedNotice_sameButVerdicts t)
        · exact hreported _ _
      · exact hset _
  · rw [judgePeer_other hpresent hsample hmember hsuspect, judged_other _ hpresent hsample hmember hsuspect]
    exact hset _

end Sys2Proof.Machine
end

section
/-! PROOFS. The Peer Table stays sound (O58), first part: the rows and operations that touch neither the table nor the station state. -/

namespace Sys2Proof.Machine

variable {s t : State}

/-! ### What the soundness of the Peer Table reads -/

/-- What `State.peersSound` reads of a state: a change of the rest keeps it. -/
def State.roster (s : State) : Vector Peer 16 × List (Station × Int) × Bool × StationState × Straps :=
  (s.peers, s.rounds.samples, s.rounds.active, s.ctl.state, s.straps)

/-- With the same entries, samples and straps, the table stays sound in a station that has not entered LISTEN, and that keeps rounds only
where it takes part. -/
theorem peersSound_of_table (h : s.peersSound) (hpeers : t.peers = s.peers) (hsamples : t.rounds.samples = s.rounds.samples)
    (hstraps : t.straps = s.straps) (hlisten : t.ctl.state = .listen → s.ctl.state = .listen)
    (hactive : t.rounds.active = true → t.ctl.state.takesPart = true) : t.peersSound := by
  obtain ⟨hsound, hown, hsorted, hlisted, hmembers, _⟩ := h
  have hpeer (n : Station) : t.peer n = s.peer n := by rw [State.peer, State.peer, hpeers]
  have howner : t.own = s.own := congrArg Straps.number hstraps
  refine ⟨fun n => hpeer n ▸ hsound n, ?_, hsamples ▸ hsorted, fun n => ?_, fun hl n => ?_, hactive⟩
  · rw [hpeer, howner, hown]
  · rw [hpeer, hsamples, hlisted]
  · rw [hpeer]
    exact hmembers (hlisten hl) n

theorem peersSound_of_roster (hroster : t.roster = s.roster) (h : s.peersSound) : t.peersSound := by
  simp only [State.roster, Prod.mk.injEq] at hroster
  obtain ⟨hpeers, hsamples, hactive, hstate, hstraps⟩ := hroster
  have ⟨_, _, _, _, _, hrounds⟩ := h
  refine peersSound_of_table h hpeers hsamples hstraps (fun hl => hstate ▸ hl) fun ha => ?_
  rw [hstate]
  exact hrounds (hactive ▸ ha)

theorem foldl_roster {α : Type} {f : State → α → State} (hf : ∀ s a, (f s a).roster = s.roster) (xs : List α) (s : State) :
    (xs.foldl f s).roster = s.roster :=
  List.foldlRecOn (motive := fun t => t.roster = s.roster) xs f rfl fun t ht a _ => (hf t a).trans ht

theorem rounds_roster {r : RoundEngine} (hsamples : r.samples = s.rounds.samples) (hactive : r.active = s.rounds.active) :
    State.roster { s with rounds := r } = s.roster := by
  rw [State.roster, State.roster, hsamples, hactive]

theorem sameButEntries_roster (h : s.sameButEntries t) : t.roster = s.roster := by
  obtain ⟨_, _, _, _, rfl, _⟩ := h
  rfl

/-! ### Needs, reports and the frame in flight -/

theorem queueReports_roster (ks : List ReportKind) (s : State) : (queueReports ks s).roster = s.roster := by
  rw [queueReports_eq]
  rfl

theorem raiseNeed_roster (kind : FrameKind) (source : NeedSource) (s : State) : (raiseNeed kind source s).roster = s.roster := by
  obtain ⟨needs, age, he⟩ := raiseNeed_frame kind source s
  rw [he]
  rfl

theorem ownerCut_roster (id : ActionId) (kinds : List FrameKind) (s : State) : (ownerCut id kinds s).roster = s.roster := by
  unfold ownerCut
  split
  · split
    · split <;> rfl
    · rfl
  · rfl

theorem latchFrameStart_roster (s : State) : (latchFrameStart s).roster = s.roster := by
  unfold latchFrameStart
  split <;> rfl

theorem access_roster (s : State) : (access s).roster = s.roster := by
  rcases access_cases s with he | ⟨need, _, _, he⟩ <;> rw [he]
  have hdrive (t : State) : (driveNow t).roster = t.roster := by
    unfold driveNow
    split
    · split <;> rfl
    · rfl
  rw [latchFrameStart_roster]
  exact hdrive _

theorem frameStart_roster (s : State) : (frameStart s).roster = s.roster := by
  unfold frameStart
  split
  · unfold takeFrameStart
    split
    · exact latchFrameStart_roster _
    · exact latchFrameStart_roster _
    · exact latchFrameStart_roster _
    all_goals split <;> exact latchFrameStart_roster _
  · rfl

/-! ### Firings -/

theorem fire_roster (late : Bool) (e : Entry) (s : State) : (fire late e s).roster = s.roster := by
  have hreport (t : State) : (fireReport late e t).roster = t.roster := by
    unfold fireReport
    split <;> rfl
  unfold fire fireEntry
  split <;> exact hreport (markFired e (fireOutput late e s))

theorem actionDue_roster (s : State) : (actionDue s).roster = s.roster := by
  rcases actionDue_cases s with ⟨_, he⟩ | ⟨e, _, he⟩ <;> rw [he]
  exact fire_roster ..

theorem pulseEnd_roster (c : Channel) (s : State) : (pulseEnd c s).roster = s.roster := by
  rcases pulseEnd_cases c s with he | ⟨_, he⟩ <;> rw [he]
  rfl

/-! ### The entries of the due list -/

theorem endFollowUp_roster (e : Entry) (s : State) : (endFollowUp e s).roster = s.roster := queueReports_roster ..

theorem endCancel_roster (e : Entry) (s : State) : (endCancel e s).roster = s.roster := queueReports_roster ..

theorem entryCheckComplete_roster (kind : FrameKind) (id : ActionId) (s : State) :
    (entryCheckComplete kind id s).roster = s.roster := by
  have hpoint (e : Entry) : (cancelPoint e s).roster = s.roster := by
    unfold cancelPoint
    split
    · rfl
    · exact queueReports_roster ..
  unfold entryCheckComplete
  split
  · rfl
  · split
    · rfl
    · split <;> rfl
    · exact hpoint _
    · rfl

theorem proposeCompleted_roster (acks : StationSet) (e : Entry) (s : State) : (proposeCompleted acks e s).roster = s.roster := by
  unfold proposeCompleted proposeOutcome
  extract_lets e'
  split
  · exact raiseNeed_roster ..
  · split <;> exact raiseNeed_roster ..

theorem commitCompleted_roster (acks : StationSet) (e : Entry) (s : State) : (commitCompleted acks e s).roster = s.roster := by
  rw [commitCompleted_eq]
  split
  · exact raiseNeed_roster ..
  · exact endFollowUp_roster ..

theorem cancelCompleted_roster (acks : StationSet) (e : Entry) (s : State) : (cancelCompleted acks e s).roster = s.roster := by
  rw [cancelCompleted_eq]
  split
  · exact raiseNeed_roster ..
  · exact endCancel_roster ..

theorem entryCompleted_roster (kind : FrameKind) (id : ActionId) (acks : StationSet) (held : Bool) (s : State) :
    (entryCompleted kind id acks held s).roster = s.roster := by
  unfold entryCompleted
  split
  · rfl
  · split
    · exact proposeCompleted_roster ..
    · split
      · exact commitCompleted_roster ..
      · rfl
    · exact cancelCompleted_roster ..
    · rfl

theorem entryFailed_roster (kind : FrameKind) (id : ActionId) (held : Bool) (s : State) :
    (entryFailed kind id held s).roster = s.roster := by
  unfold entryFailed
  split
  · rfl
  · split
    · split
      · exact endFollowUp_roster ..
      · rfl
    · split
      · exact endCancel_roster ..
      · rfl
    · rfl

theorem cancelDeadline_roster (e : Entry) (s : State) : (cancelDeadline e s).roster = s.roster := by
  unfold cancelDeadline
  extract_lets t
  have ht : t.roster = s.roster := ownerCut_roster ..
  split
  · split
    · exact ht
    · exact (endCancel_roster e t).trans ht
  · split
    · exact ht
    · exact (queueReports_roster ..).trans ht

theorem answerDeadline_roster (e : Entry) (s : State) : (answerDeadline e s).roster = s.roster := by
  unfold answerDeadline
  split
  · exact ownerCut_roster ..
  · exact ownerCut_roster ..
  · rfl
  · exact cancelDeadline_roster e s
  · rfl

theorem deadlineEvent_roster (id : ActionId) (s : State) : (deadlineEvent id s).roster = s.roster := by
  rcases deadlineEvent_cases id s with he | ⟨e, _, _, he⟩ <;> rw [he]
  exact answerDeadline_roster e s

theorem followUpDeadline_roster (id : ActionId) (s : State) : (followUpDeadline id s).roster = s.roster := by
  rcases followUpDeadline_cases id s with he | ⟨e, _, _, _, _, he⟩ <;> rw [he]
  split
  · rfl
  · exact endFollowUp_roster e s

/-! ### The member side -/

theorem storeCopy_roster (e : Entry) (s : State) : (storeCopy e s).roster = s.roster := by
  rcases storeCopy_cases e s with ⟨_, he⟩ | ⟨_, he⟩ <;> rw [he] <;> rfl

theorem memberPropose_roster (sender : Station) (payload : List Byte) (s : State) :
    (memberPropose sender payload s).1.roster = s.roster := by
  unfold memberPropose
  extract_lets id
  split
  · rfl
  · split
    · split
      · split
        · rfl
        · split
          · exact storeCopy_roster ..
          · rfl
      · split
        · exact storeCopy_roster ..
        · rfl
    · rfl

theorem memberCommit_roster (own sender : Station) (payload : List Byte) (s : State) :
    (memberCommit own sender payload s).1.roster = s.roster := by
  unfold memberCommit
  extract_lets id set
  split
  · rfl
  · split
    · split <;> rfl
    all_goals rfl

/-! ### Captures and marks -/

theorem joinMarks_roster (m : Mark) (s : State) : (joinMarks m s).roster = s.roster := by
  unfold joinMarks
  extract_lets t
  split
  · exact raiseNeed_roster ..
  · rfl

theorem captureEdge_roster (s : State) : (captureEdge s).roster = s.roster := by
  rcases captureEdge_cases s with he | ⟨i, e, _, he⟩ <;> rw [he]
  split
  · unfold recordEdge
    extract_lets st placed t
    split
    · exact joinMarks_roster ..
    · rfl
  · rfl

theorem memberMark_roster (sender : Station) (payload : List Byte) (s : State) :
    (memberMark sender payload s).1.roster = s.roster := by
  unfold memberMark
  split <;> rfl

theorem markCompleted_roster (s : State) : (markCompleted s).roster = s.roster := by
  unfold markCompleted
  extract_lets t
  split
  · rfl
  · exact raiseNeed_roster ..

/-! ### Rows of the line and the Round Engine -/

theorem checkComplete_roster (s : State) : (checkComplete s).roster = s.roster := by
  have hreport (need : Need) (t : State) : (reportCheckComplete need t).roster = t.roster := by
    unfold reportCheckComplete
    split
    · exact entryCheckComplete_roster ..
    all_goals rfl
  unfold checkComplete
  split
  · extract_lets t
    rw [hreport]
    split <;> rfl
  · rfl

theorem lineQuiet_roster (s : State) : (lineQuiet s).roster = s.roster := by
  unfold lineQuiet
  split <;> rfl

theorem arbitrationLost_roster (s : State) : (arbitrationLost s).roster = s.roster := by
  unfold arbitrationLost
  split <;> rfl

theorem receivedFrameEnd_roster (s : State) : (receivedFrameEnd s).roster = s.roster := by
  unfold receivedFrameEnd
  split <;> rfl

theorem lengthAbove24_roster (s : State) : (lengthAbove24 s).roster = s.roster := by
  unfold lengthAbove24
  split <;> rfl

theorem roundStart_roster (s : State) : (roundStart s).roster = s.roster := by
  rcases roundStart_cases s with he | ⟨_, he⟩ <;> rw [he]
  exact (raiseNeed_roster ..).trans (rounds_roster rfl rfl)

theorem requestStep_roster (st : TimeStep) (s : State) : (requestStep st s).roster = s.roster := by
  unfold requestStep
  split <;> rfl

theorem closeStage1_roster (s : State) : (closeStage1 s).roster = s.roster := by
  unfold closeStage1
  extract_lets _ t
  split <;> rfl

theorem closeStage3_roster (c : Int) (n : Nat) (s : State) : (closeStage3 c n s).roster = s.roster := by
  have hslew (q : Int) : (requestSlew q s).1.roster = s.roster := by
    unfold requestSlew
    split <;> rfl
  have htrim (v : Int) (t : State) : (requestTrim v t).1.roster = t.roster := by
    unfold requestTrim
    split <;> rfl
  unfold closeStage3
  extract_lets q a b
  have hb : b.1.roster = s.roster := by
    unfold b
    split
    · exact (htrim ..).trans (hslew q)
    · exact hslew q
  split <;> exact hb

theorem tableNotice_roster (st : TimeStep) (s : State) : (tableNotice st s).roster = s.roster := by
  unfold tableNotice
  extract_lets t
  split
  · exact (foldl_roster (fun s e => fire_roster true e s) ..).trans (foldl_roster (fun s e => answerDeadline_roster e s) ..)
  · rfl

/-! ### The commands of the host -/

theorem badCommand_roster (s : State) : (badCommand s).roster = s.roster := by
  unfold badCommand
  split
  · split <;> rfl
  · rfl

theorem ownConfigure_roster (a : List Byte) (s : State) : (ownConfigure a s).roster = s.roster := by
  unfold ownConfigure
  split
  · split
    · split <;> rfl
    · rfl
  · rfl

theorem ownReadPeer_roster (a : List Byte) (s : State) : (ownReadPeer a s).roster = s.roster := by
  unfold ownReadPeer
  split <;> rfl

theorem ownReadAction_roster (a : List Byte) (s : State) : (ownReadAction a s).roster = s.roster := by
  unfold ownReadAction
  split
  · split <;> rfl
  · rfl

theorem ownSchedule_roster (a : List Byte) (s : State) : (ownSchedule a s).roster = s.roster := by
  unfold ownSchedule
  split
  · rfl
  · split
    · rfl
    · split
      · rfl
      · split
        · rfl
        · split <;> rfl

theorem ownPropose_roster (a : List Byte) (s : State) : (ownPropose a s).roster = s.roster := by
  unfold ownPropose
  split
  · rfl
  · split
    · rfl
    · split
      · rfl
      · split
        · rfl
        · exact raiseNeed_roster ..

theorem cancelTaken_roster (e : Entry) (s : State) : (cancelTaken e s).roster = s.roster := by
  have harmed : (cancelArmed e s).roster = s.roster := by
    unfold cancelArmed
    extract_lets t
    refine (raiseNeed_roster ..).trans (show t.roster = s.roster from ?_)
    unfold t
    split
    · exact endFollowUp_roster e s
    · rfl
  unfold cancelTaken
  split
  · rfl
  · split
    · exact raiseNeed_roster ..
    · exact raiseNeed_roster ..
    · exact harmed
    · rfl
    · rfl

theorem ownCancel_roster (a : List Byte) (s : State) : (ownCancel a s).roster = s.roster := by
  unfold ownCancel
  split
  · rfl
  · split
    · rfl
    · split
      · rfl
      · split
        · rfl
        · split
          · rfl
          · exact cancelTaken_roster _ s

theorem ownTakeReport_roster (a : List Byte) (s : State) : (ownTakeReport a s).roster = s.roster := by
  unfold ownTakeReport
  split <;> rfl

theorem ownTakeCapture_roster (a : List Byte) (s : State) : (ownTakeCapture a s).roster = s.roster := by
  unfold ownTakeCapture
  split <;> rfl

/-! ### The boundary -/

theorem readInputs_roster (pins : Pins) (s : State) : (readInputs pins s).roster = s.roster := by
  obtain ⟨_, _, _, _, _, _, _, _, he⟩ := readInputs_eq pins s
  rw [he]
  rfl

end Sys2Proof.Machine
end

section
/-! PROOFS. The Peer Table stays sound (O58), second part: the changes of the table, of the samples and of the station state, and every row. -/

namespace Sys2Proof.Machine

variable {s t : State} {n : Station}

/-! ### The sample list -/

theorem listedSample_insertSample (n m : Station) (v : Int) (samples : List (Station × Int)) :
    listedSample m (insertSample n v samples) = if m = n then some v else listedSample m samples := by
  induction samples with
  | nil =>
    by_cases h : m = n
    · simp [insertSample, listedSample, h]
    · simp [insertSample, listedSample, h, Ne.symm h]
  | cons x rest ih =>
    obtain ⟨k, w⟩ := x
    simp only [listedSample] at ih
    rw [insertSample]
    by_cases hm : m = n
    · subst hm
      split
      · simp [listedSample]
      · split
        · simp [listedSample]
        · rename_i hne
          simp [listedSample, Ne.symm hne, ih]
    · split
      · simp [listedSample, Ne.symm hm]
      · split
        · rename_i hk
          subst hk
          simp [listedSample, Ne.symm hm]
        · by_cases hk : k = m
          · simp [listedSample, hk]
          · simp [listedSample, hm, hk, ih]

/-- An offset takes its place in station order (R76). -/
theorem insertSample_sorted (n : Station) (v : Int) {samples : List (Station × Int)}
    (h : samples.Pairwise fun a b => a.1 < b.1) : (insertSample n v samples).Pairwise fun a b => a.1 < b.1 := by
  have hmem {x : Station × Int} {list : List (Station × Int)} (hx : x ∈ insertSample n v list) : x.1 = n ∨ x ∈ list := by
    induction list with
    | nil => simp_all [insertSample]
    | cons a rest ih =>
      rw [insertSample] at hx
      split at hx
      · rcases List.mem_cons.1 hx with rfl | hx
        · exact .inl rfl
        · exact .inr hx
      · split at hx
        · rcases List.mem_cons.1 hx with rfl | hx
          · exact .inl rfl
          · exact .inr (List.mem_cons_of_mem _ hx)
        · rcases List.mem_cons.1 hx with rfl | hx
          · exact .inr List.mem_cons_self
          · exact (ih hx).imp_right (List.mem_cons_of_mem _)
  induction samples with
  | nil => simp [insertSample]
  | cons a rest ih =>
    obtain ⟨hhead, hrest⟩ := List.pairwise_cons.1 h
    rw [insertSample]
    split
    · rename_i hlt
      exact List.pairwise_cons.2 ⟨List.forall_mem_cons.2 ⟨hlt, fun x hx => hlt.trans (hhead x hx)⟩, h⟩
    · split
      · rename_i heq
        exact List.pairwise_cons.2 ⟨fun x hx => heq ▸ hhead x hx, hrest⟩
      · rename_i hlt hne
        refine List.pairwise_cons.2 ⟨fun x hx => ?_, ih hrest⟩
        rcases hmem hx with hx | hx
        · rw [hx]
          exact lt_of_le_of_ne (not_lt.1 hlt) (Ne.symm hne)
        · exact hhead x hx

theorem listedSample_dropSample (n m : Station) (samples : List (Station × Int)) :
    listedSample m (dropSample n samples) = if m = n then none else listedSample m samples := by
  rw [listedSample, dropSample, List.find?_filter]
  by_cases h : m = n
  · subst h
    simp
  · rw [if_neg h, listedSample]
    congr 2
    funext x
    by_cases hx : x.1 = m
    · simp [hx, h]
    · simp [hx]

/-! ### Changes of the table -/

theorem absent_sound : Peer.absent.sound := by simp [Peer.sound, Peer.absent]

/-- An entry written, with the sample list that goes with it. -/
theorem peersSound_write {p : Peer} {samples : List (Station × Int)} (h : s.peersSound) (hp : p.sound)
    (hown : n = s.own → p = Peer.absent) (hsorted : samples.Pairwise fun a b => a.1 < b.1)
    (hsamples : ∀ m, listedSample m samples = if m = n then p.sample else listedSample m s.rounds.samples)
    (hlisten : s.ctl.state = .listen → p.member = false) :
    State.peersSound { s with peers := s.peers.set n p, rounds.samples := samples } := by
  have ⟨hsound, hself, _, hlisted, hmembers, hactive⟩ := h
  have hsame : State.peer { s with peers := s.peers.set n p, rounds.samples := samples } n = p := setPeer_same n p s
  have hother {m : Station} (hm : m ≠ n) : State.peer { s with peers := s.peers.set n p, rounds.samples := samples } m = s.peer m :=
    setPeer_other p s hm
  refine ⟨fun m => ?_, ?_, hsorted, fun m => ?_, fun hl m => ?_, hactive⟩
  · by_cases hm : m = n
    · rw [hm, hsame]
      exact hp
    · rw [hother hm]
      exact hsound m
  · by_cases hm : s.own = n
    · exact (congrArg _ hm).trans (hsame.trans (hown hm.symm))
    · exact (hother hm).trans hself
  · rw [hsamples]
    by_cases hm : m = n
    · rw [if_pos hm, hm, hsame]
    · rw [if_neg hm, hother hm, hlisted]
  · by_cases hm : m = n
    · rw [hm, hsame]
      exact hlisten hl
    · rw [hother hm]
      exact hmembers hl m

/-- An entry written with its sample as it was. -/
theorem peersSound_setPeer {p : Peer} (h : s.peersSound) (hp : p.sound) (hown : n = s.own → p = Peer.absent)
    (hsample : p.sample = (s.peer n).sample) (hlisten : s.ctl.state = .listen → p.member = false) : (setPeer n p s).peersSound := by
  have ⟨_, _, hsorted, hlisted, _⟩ := h
  refine peersSound_write h hp hown hsorted (fun m => ?_) hlisten
  by_cases hm : m = n
  · rw [if_pos hm, hm, hsample, hlisted]
  · rw [if_neg hm]

/-- The same change of every entry, with the sample list that goes with it. -/
theorem peersSound_map {g : Peer → Peer} {samples : List (Station × Int)} (h : s.peersSound) (hg : ∀ p, p.sound → (g p).sound)
    (habsent : g Peer.absent = Peer.absent) (hmember : ∀ p, p.member = false → (g p).member = false)
    (hsorted : samples.Pairwise fun a b => a.1 < b.1) (hlisted : ∀ m, (g (s.peer m)).sample = listedSample m samples) :
    State.peersSound { s with peers := s.peers.map g, rounds.samples := samples } := by
  have ⟨hsound, hself, _, _, hmembers, hactive⟩ := h
  have hpeer (m : Station) : State.peer { s with peers := s.peers.map g, rounds.samples := samples } m = g (s.peer m) := by
    simp [State.peer]
  refine ⟨fun m => ?_, ?_, hsorted, fun m => ?_, fun hl m => ?_, hactive⟩
  · rw [hpeer]
    exact hg _ (hsound m)
  · exact (hpeer s.own).trans ((congrArg g hself).trans habsent)
  · rw [hpeer, hlisted]
  · rw [hpeer]
    exact hmember _ (hmembers hl m)

/-- An empty table without samples and rounds is sound in every station state. -/
theorem peersSound_empty (hpeers : s.peers = Vector.replicate 16 Peer.absent) (hsamples : s.rounds.samples = [])
    (hactive : s.rounds.active = false) : s.peersSound := by
  have hpeer (m : Station) : s.peer m = Peer.absent := by simp [State.peer, hpeers]
  refine ⟨fun m => ?_, hpeer _, ?_, fun m => ?_, fun _ m => ?_, fun ha => ?_⟩
  · rw [hpeer]
    exact absent_sound
  · simp [hsamples]
  · rw [hpeer, hsamples]
    rfl
  · rw [hpeer]
    rfl
  · simp [hactive] at ha

theorem clearSamples_peersSound (h : s.peersSound) : (clearSamples s).peersSound := by
  refine peersSound_map h (fun p ⟨habsent, hrest⟩ => ⟨fun hp => ?_, hrest⟩) rfl (fun _ hp => hp) .nil fun _ => rfl
  rw [habsent hp]
  rfl

theorem clearMembers_peersSound (h : s.peersSound) : (clearMembers s).peersSound := by
  have ⟨_, _, hsorted, hlisted, _⟩ := h
  refine peersSound_map h (fun p hp => ?_) rfl (fun _ _ => rfl) hsorted hlisted
  obtain ⟨habsent, hfields, hmiss, houtlier, hgood, _, hsuspect, hclean⟩ := hp
  refine ⟨fun hp => ?_, hfields, hmiss, houtlier, hgood, by simp, hsuspect, hclean⟩
  rw [habsent hp]
  rfl

/-! ### Moves of the station state -/

/-- A move into a state that takes part, or out of every state that keeps rounds, keeps the table sound; a move into LISTEN does not. -/
theorem peersSound_move {new : StationState} (hnew : new ≠ .listen) (hactive : s.rounds.active = true → new.takesPart = true)
    (h : s.peersSound) : State.peersSound { s with ctl.state := new } :=
  peersSound_of_table h rfl rfl rfl (fun hl => absurd hl hnew) hactive

theorem takesPart_not_listen {st : StationState} (h : st.takesPart = true) : st ≠ .listen := by
  rintro rfl
  cases h

theorem moveState_peersSound {new : StationState} (hnew : new.takesPart = true) (cause : MoveCause) (h : s.peersSound) :
    (moveState new cause s).peersSound :=
  peersSound_move (s := s) (takesPart_not_listen hnew) (fun _ => hnew) h

theorem resetRounds_peersSound (hpart : s.ctl.state.takesPart = true) (h : s.peersSound) : (resetRounds s).peersSound :=
  peersSound_of_table (clearSamples_peersSound h) rfl rfl rfl id fun _ => hpart

theorem goOff_peersSound (cause : MoveCause) (s : State) : (goOff cause s).peersSound := peersSound_empty rfl rfl rfl

theorem enterLeaving_peersSound (h : s.peersSound) : (enterLeaving s).peersSound :=
  peersSound_of_roster (raiseNeed_roster ..) (peersSound_of_table h rfl rfl rfl (fun hl => nomatch hl) fun ha => nomatch ha)

theorem enterFault_peersSound (cause : FaultCause) (move : MoveCause) (o : FaultOrder) (h : s.peersSound) :
    (enterFault cause move o s).peersSound := by
  have hfault {t : State} (h : t.peersSound) : (intoFault cause t).peersSound :=
    peersSound_of_table h rfl rfl rfl (fun hl => nomatch hl) fun ha => nomatch ha
  have hreport (k : ReportKind) (t : State) : (queueReport k t).roster = t.roster := rfl
  rw [enterFault_eq]
  cases o with
  | stateFirst => exact peersSound_of_roster ((queueReports_roster ..).trans (hreport ..)) (hfault h)
  | protocolFirst => exact peersSound_of_roster (hreport ..) (hfault (peersSound_of_roster (queueReports_roster ..) h))

theorem listenTimeout_peersSound (h : s.peersSound) : (listenTimeout s).peersSound := by
  unfold listenTimeout
  split
  · exact resetRounds_peersSound rfl (moveState_peersSound (s := { s with ctl.listenTimer := none }) rfl _ h)
  · exact h

theorem adopt_peersSound (offset : Int) (h : s.peersSound) : (adopt offset s).peersSound :=
  moveState_peersSound (s := { requestStep ⟨offset, .adopt⟩ s with ctl.listenTimer := none }) rfl _
    (peersSound_of_roster (requestStep_roster ..) h)

/-- What a judgement, a notice and a SYNC leave beside the table keeps it sound. -/
theorem State.sameButVerdicts.peersSound {peers : Vector Peer 16} (h : s.sameButVerdicts peers t)
    (hs : State.peersSound { s with peers := peers }) : t.peersSound := by
  obtain ⟨peered, state, ht, hstate⟩ := h
  refine peersSound_of_roster (sameButEntries_roster ht) ?_
  rcases hstate with rfl | ⟨_, rfl⟩
  · exact hs
  · exact peersSound_move (s := { s with peers := peers, rounds.peered := peered }) (by decide) (fun _ => rfl) hs

/-! ### SYNC and LEAVE -/

/-- The entry of a SYNC's sender is sound: a member that it makes is neither suspect nor disagreeing, and reports SYNCED or HOLDOVER
(R61). -/
theorem synced_sound {c : SyncContent} {offset : Int} (h : (s.peer n).sound) :
    ((s.synced n c offset (s.memberBy n c offset)).peer n).sound := by
  obtain ⟨_, _, hmiss, houtlier, hgood, _, hsuspect, hclean⟩ := h
  rw [synced_peer]
  refine ⟨by simp, by simp, hmiss, houtlier, hgood, fun hmember => ?_, fun hs => ⟨rfl, (hsuspect hs).2⟩, hclean⟩
  simp only [State.memberBy, Bool.and_eq_true, Bool.not_eq_true', bne_iff_ne] at hmember
  obtain ⟨⟨hsender, hclear⟩, hagrees⟩ := hmember
  refine ⟨rfl, hclear, hagrees, ?_⟩
  cases hc : c.sender <;> simp_all

theorem syncReceived_peersSound (c : SyncContent) (offset : Int) (hother : n ≠ s.own) (hpart : s.ctl.state.takesPart = true)
    (h : s.peersSound) : (syncReceived n c offset s).peersSound := by
  have ⟨hsound, _, hsorted, hlisted, _⟩ := h
  have hentry := synced_sound (c := c) (offset := offset) (hsound n)
  have ht : (s.synced n c offset (s.memberBy n c offset)).peersSound := by
    rw [synced_peer] at hentry
    refine peersSound_write h hentry (absurd · hother) ?_ (fun m => ?_) (absurd · (takesPart_not_listen hpart))
    · split
      · exact insertSample_sorted n offset hsorted
      · exact hsorted
    · cases hrecords : s.recordsSample c with
      | true => exact listedSample_insertSample ..
      | false =>
        by_cases hm : m = n
        · simp [hm, hlisted]
        · simp [hm]
  rw [syncReceived_eq]
  split
  · exact (joinedNotice_sameButVerdicts _).peersSound ht
  · split
    · exact peersSound_of_roster (sameButEntries_roster (leftNotice_sameButEntries ..)) ht
    · exact ht

theorem syncHeard_peersSound (c : SyncContent) (offset : Int) (hother : n ≠ s.own) (hlisten : s.ctl.state = .listen) (h : s.peersSound) :
    (syncHeard n c offset s).peersSound := by
  have ⟨hsound, _, _, _, hmembers, _⟩ := h
  obtain ⟨_, _, hmiss, houtlier, hgood, _, hsuspect, hclean⟩ := hsound n
  have hmember := hmembers hlisten n
  have ht : (setPeer n ((s.peer n).heard n c) s).peersSound := by
    refine peersSound_setPeer h ?_ (absurd · hother) rfl fun _ => hmember
    exact ⟨by simp [Peer.heard], by simp [Peer.heard], hmiss, houtlier, hgood, by simp [Peer.heard, hmember],
      fun hs => ⟨rfl, (hsuspect hs).2⟩, hclean⟩
  unfold syncHeard
  split
  · exact ht
  · exact adopt_peersSound offset ht
  · exact adopt_peersSound offset ht

theorem leaveReceived_peersSound (n : Station) (h : s.peersSound) : (leaveReceived n s).peersSound := by
  have ⟨_, _, hsorted, _⟩ := h
  unfold leaveReceived
  split
  · refine (dropPeer_sameButVerdicts n .leave _).peersSound ?_
    exact peersSound_write (s := s) h absent_sound (fun _ => rfl) (hsorted.filter _) (listedSample_dropSample n · _) fun _ => rfl
  · exact h

/-! ### The close -/

/-- A judgement keeps the table sound, and does not lead into LISTEN, where no member may stand (R62). -/
theorem judgePeer_peersSound (c : Int) (n : Station) (h : s.peersSound ∧ s.ctl.state.takesPart = true) :
    (judgePeer c n s).peersSound ∧ (judgePeer c n s).ctl.state.takesPart = true := by
  obtain ⟨hs, hpart⟩ := h
  have ⟨hsound, hself, _⟩ := hs
  have hjudged := judgePeer_sameButVerdicts c n s
  refine ⟨hjudged.peersSound ?_, ?_⟩
  · refine peersSound_setPeer hs (judged_sound _ (hsound n)) (fun hown => ?_) (judged_sample ..)
      (absurd · (takesPart_not_listen hpart))
    have habsent : s.peer n = Peer.absent := hown ▸ hself
    rw [judged_absent _ (by rw [habsent]; rfl), habsent]
  · obtain ⟨_, state, ⟨_, _, _, _, he, _⟩, hstate⟩ := hjudged
    rw [he]
    rcases hstate with rfl | ⟨_, rfl⟩
    · exact hpart
    · rfl

theorem yieldParts_peersSound (order : YieldOrder) (left : List Station) (h : s.peersSound) : (yieldParts order left s).peersSound := by
  have notices {t : State} (h : t.peersSound) : (yieldNotices left t).peersSound :=
    peersSound_of_roster (foldl_roster (fun s n => sameButEntries_roster (leftNotice_sameButEntries n s)) left t) h
  have discard {t : State} (h : t.peersSound) : (discardShared t).peersSound :=
    peersSound_of_roster (sameButEntries_roster (discardShared_sameButEntries t)) h
  have move {t : State} (h : t.peersSound) : (yieldMove t).peersSound := moveState_peersSound rfl _ h
  cases order with
  | noticesDiscardMove => exact move (discard (notices h))
  | noticesMoveDiscard => exact discard (move (notices h))
  | discardNoticesMove => exact move (notices (discard h))
  | discardMoveNotices => exact notices (move (discard h))
  | moveNoticesDiscard => exact discard (notices (move h))
  | moveDiscardNotices => exact notices (discard (move h))

theorem yieldTo_peersSound (k : Candidate) (o : CloseOrder) (h : s.peersSound) : (yieldTo k o s).peersSound :=
  yieldParts_peersSound o.yield _ (s := { clearMembers (requestStep ⟨k.sample, .merge⟩ s) with rounds.joinRun := 0 })
    (clearMembers_peersSound (peersSound_of_roster (requestStep_roster ..) h))

theorem closeStage6_peersSound (c : Int) (h : s.peersSound) : (closeStage6 c s).peersSound := by
  unfold closeStage6
  split
  · split
    · exact h
    · split
      · exact moveState_peersSound rfl _ h
      · exact h
  · exact h

theorem closeStage7_peersSound (before : StationState) (h : s.peersSound) : (closeStage7 before s).peersSound := by
  unfold closeStage7
  split
  · exact moveState_peersSound rfl _ h
  · exact h

theorem roundClose_peersSound (o : CloseOrder) (h : s.peersSound) : (roundClose o s).peersSound := by
  rcases roundClose_cases o s with he | ⟨hdue, he⟩ <;> rw [he]
  · exact h
  · have ⟨_, _, _, _, _, hactive⟩ := h
    have hpart : s.ctl.state.takesPart = true := by
      simp only [State.closeDue, Bool.and_eq_true] at hdue
      exact hactive hdue.1.1.1
    unfold closeRound
    extract_lets used c s1 r s2 s3 s4
    have h3 : s3.roster = s.roster :=
      (closeStage3_roster ..).trans ((rounds_roster (s := s1) rfl rfl).trans (closeStage1_roster s))
    have hpart3 : s3.ctl.state.takesPart = true := by
      rw [show s3.ctl.state = s.ctl.state from congrArg (·.2.2.2.1) h3]
      exact hpart
    have h4 : s4.peersSound := (List.foldlRecOn (motive := fun t : State => t.peersSound ∧ t.ctl.state.takesPart = true) _ _
      ⟨peersSound_of_roster h3 h, hpart3⟩ fun t ht n _ => judgePeer_peersSound c n ht).1
    refine clearSamples_peersSound ?_
    unfold closeStages567
    split
    · exact yieldTo_peersSound _ o h4
    · exact closeStage7_peersSound _ (closeStage6_peersSound c h4)

theorem stepNotice_peersSound (steppedFirst : Bool) (h : s.peersSound) : (stepNotice steppedFirst s).peersSound := by
  have hrounds {t : State} (h : t.peersSound) : (roundsNotice t).peersSound := by
    unfold roundsNotice
    split
    · exact resetRounds_peersSound ‹_› h
    · exact h
  unfold stepNotice
  split
  · refine hrounds (peersSound_of_roster ?_ h)
    split <;> exact tableNotice_roster ..
  · exact h

/-! ### Outcomes and failures -/

theorem reportFailed_peersSound (need : Need) (h : s.peersSound) : (reportFailed need s).peersSound := by
  have hleave : (leaveFailed s).peersSound := by
    unfold leaveFailed
    split
    · exact goOff_peersSound ..
    · exact h
  unfold reportFailed
  split
  · exact h
  · exact h
  · exact peersSound_of_roster (entryFailed_roster ..) h
  · split
    · exact hleave
    · exact h

theorem reportCompleted_peersSound (need : Need) (acks : StationSet) (held : Bool) (h : s.peersSound) :
    (reportCompleted need acks held s).peersSound := by
  unfold reportCompleted
  split
  · split <;> exact h
  · split
    · exact peersSound_of_roster (markCompleted_roster s) h
    · exact h
  · exact peersSound_of_roster (entryCompleted_roster ..) h
  · split
    · exact goOff_peersSound ..
    · exact h

theorem frameCompleted_peersSound (h : s.peersSound) : (frameCompleted s).peersSound := by
  unfold frameCompleted
  split
  · split
    · exact reportCompleted_peersSound _ _ _ h
    · exact h
  · exact h

theorem faultAtLimit_peersSound (o : FaultOrder) (h : s.peersSound) : (faultAtLimit o s).peersSound := by
  unfold faultAtLimit
  split
  · exact enterFault_peersSound _ _ o h
  · exact h

theorem failOwn_peersSound (o : FaultOrder) (need : Need) (h : s.peersSound) : (failOwn o need s).peersSound :=
  faultAtLimit_peersSound o (reportFailed_peersSound need (s := countFailure s) h)

theorem cutByLine_peersSound (o : FaultOrder) (h : s.peersSound) : (cutByLine o s).peersSound := by
  unfold cutByLine
  split
  · exact failOwn_peersSound o _ (s := endFrame s) h
  · exact h
  · exact h

theorem startBitRecessive_peersSound (o : FaultOrder) (driven : Bool) (h : s.peersSound) : (startBitRecessive o driven s).peersSound := by
  unfold startBitRecessive
  split
  · exact h
  · split
    · extract_lets _ _ t
      have ht : t.peersSound := h
      split
      · split
        · exact failOwn_peersSound o _ ht
        · exact ht
      · exact ht
    · exact cutByLine_peersSound o h

theorem falseStart_peersSound (o : FaultOrder) (h : s.peersSound) : (falseStart o s).peersSound := by
  unfold falseStart
  split
  · exact startBitRecessive_peersSound o _ h
  · exact h

theorem stopError_peersSound (o : FaultOrder) (h : s.peersSound) : (stopError o s).peersSound := by
  unfold stopError
  split
  · exact cutByLine_peersSound o h
  · exact h

theorem gapExpiry_peersSound (o : FaultOrder) (h : s.peersSound) : (gapExpiry o s).peersSound := by
  unfold gapExpiry
  split
  · exact cutByLine_peersSound o h
  · exact h

theorem lineStuck_peersSound (o : FaultOrder) (h : s.peersSound) : (lineStuck o s).peersSound := by
  unfold lineStuck
  split
  · exact cutByLine_peersSound o (s := releaseDriver { s with line.condition := .stuck }) h
  · exact h

theorem collision_peersSound (o : FaultOrder) (h : s.peersSound) : (collision o s).peersSound := by
  unfold collision
  split
  · exact failOwn_peersSound o _ (s := giveUpSending s) h
  · exact h

theorem driverFailure_peersSound (o : FaultOrder) (h : s.peersSound) : (driverFailure o s).peersSound := by
  have hbit : (deadBit o s).peersSound := by
    unfold deadBit
    split
    · exact failOwn_peersSound o _ (s := endFrame (releaseOrder s)) h
    · exact faultAtLimit_peersSound o (s := countFailure (clearFinding (releaseOrder s))) h
    · exact h
  unfold driverFailure
  split
  · exact hbit
  · exact startBitRecessive_peersSound o true h
  · exact h

/-! ### Acceptance -/

/-- A frame that is no duplicate and passes the test comes from another station (R29, R40). -/
theorem passes_other {f : Frame} {own : Station} {kind : FrameKind} (hdup : ¬f.isDuplicate own = true)
    (hpasses : f.passes kind = some n) : n ≠ own := by
  rintro rfl
  unfold Frame.passes at hpasses
  split at hpasses
  · rename_i htest
    simp only [Bool.and_eq_true] at htest
    exact hdup (by simp [Frame.isDuplicate, htest.1.1, hpasses])
  · cases hpasses

theorem acceptFrame_peersSound (kind : FrameKind) (o : FaultOrder) {take hear : Station → List Byte → State → State × Bool}
    (htake : ∀ n payload s, n ≠ s.own → s.ctl.state.takesPart = true → s.peersSound → (take n payload s).1.peersSound)
    (hhear : ∀ n payload s, n ≠ s.own → s.ctl.state = .listen → s.peersSound → (hear n payload s).1.peersSound) (h : s.peersSound) :
    (acceptFrame kind o take hear s).peersSound := by
  have hat : (atAcceptance s).peersSound := h
  have hhand {n : Station} (hn : n ≠ s.own) (payload : List Byte) :
      (handOn (take n payload) (hear n payload) (atAcceptance s)).peersSound := by
    unfold handOn
    split
    · have htaken := htake n payload (atAcceptance s) hn ‹_› hat
      extract_lets r
      split <;> exact htaken
    · split
      · exact hhear n payload (atAcceptance s) hn ‹_› hat
      · exact hat
  unfold acceptFrame
  split
  · split
    · split
      · exact enterFault_peersSound _ _ o hat
      · split
        · exact hhand (passes_other ‹_› ‹_›) _
        · exact hat
    · exact h
  · exact h

theorem acceptUnknown_peersSound (o : FaultOrder) (h : s.peersSound) : (acceptUnknown o s).peersSound := by
  have hat : (atAcceptance s).peersSound := h
  unfold acceptUnknown
  split
  · split
    · split
      · exact enterFault_peersSound _ _ o hat
      · exact hat
    · exact h
  · exact h

theorem syncAccepted_peersSound (o : FaultOrder) (h : s.peersSound) : (syncAccepted o s).peersSound := by
  refine acceptFrame_peersSound .sync o (fun n payload s hn hpart h => ?_) (fun n payload s hn hlisten h => ?_) h
  · unfold takeSync
    split
    · exact syncReceived_peersSound _ _ hn hpart h
    · exact h
  · unfold hearSync
    split
    · exact syncHeard_peersSound _ _ hn hlisten h
    · exact h

/-- A frame whose taking leaves the table sound; no other kind than SYNC is heard in LISTEN (R30). -/
theorem acceptTaken_peersSound (kind : FrameKind) (o : FaultOrder) {take : Station → List Byte → State → State × Bool}
    (htake : ∀ n payload s, s.peersSound → (take n payload s).1.peersSound) (h : s.peersSound) :
    (acceptFrame kind o take takeNothing s).peersSound :=
  acceptFrame_peersSound kind o (fun n payload s _ _ => htake n payload s) (fun _ _ _ _ _ h => h) h

theorem leaveAccepted_peersSound (o : FaultOrder) (h : s.peersSound) : (leaveAccepted o s).peersSound :=
  acceptTaken_peersSound .leave o (fun n _ _ h => leaveReceived_peersSound n h) h

theorem proposeAccepted_peersSound (o : FaultOrder) (h : s.peersSound) : (proposeAccepted o s).peersSound :=
  acceptTaken_peersSound .propose o (fun n payload s h => peersSound_of_roster (memberPropose_roster n payload s) h) h

theorem commitAccepted_peersSound (o : FaultOrder) (h : s.peersSound) : (commitAccepted o s).peersSound :=
  acceptTaken_peersSound .commit o (fun n payload s h => peersSound_of_roster (memberCommit_roster s.own n payload s) h) h

theorem cancelAccepted_peersSound (o : FaultOrder) (h : s.peersSound) : (cancelAccepted o s).peersSound :=
  acceptTaken_peersSound .cancel o (fun _ _ _ h => h) h

theorem markAccepted_peersSound (o : FaultOrder) (h : s.peersSound) : (markAccepted o s).peersSound :=
  acceptTaken_peersSound .mark o (fun n payload s h => peersSound_of_roster (memberMark_roster n payload s) h) h

/-! ### The commands of the host -/

theorem takeCommand_peersSound (code : Byte) (args : Nat) {owner : List Byte → State → State}
    (howner : ∀ a s, s.peersSound → (owner a s).peersSound) (s : State) (h : s.peersSound) : (takeCommand code args owner s).peersSound := by
  rcases takeCommand_cases code args owner s with ⟨a, he⟩ | he | he <;> rw [he]
  · exact howner a (clearEnded s) h
  · exact h
  · exact h

/-- A command that leaves what the soundness of the table reads. -/
theorem takeCommand_roster (code : Byte) (args : Nat) {owner : List Byte → State → State}
    (howner : ∀ a s, (owner a s).roster = s.roster) (s : State) (h : s.peersSound) : (takeCommand code args owner s).peersSound :=
  takeCommand_peersSound code args (fun a s h => peersSound_of_roster (howner a s) h) s h

theorem ownStart_peersSound (a : List Byte) (s : State) (h : s.peersSound) : (ownStart a s).peersSound := by
  have hstarted (initial : Time) : (startStation initial s).peersSound := peersSound_empty rfl rfl rfl
  unfold ownStart
  split
  · exact h
  · split
    · exact h
    · exact hstarted _

theorem ownStop_peersSound (a : List Byte) (s : State) (h : s.peersSound) : (ownStop a s).peersSound := by
  unfold ownStop
  split
  · exact h
  · exact goOff_peersSound .hostStop s

theorem ownLeave_peersSound (a : List Byte) (s : State) (h : s.peersSound) : (ownLeave a s).peersSound := by
  unfold ownLeave
  split
  · exact enterLeaving_peersSound h
  · exact h

theorem hostCommands_peersSound : ∀ f ∈ hostCommands, ∀ s : State, s.peersSound → (f s).peersSound := by
  simp only [hostCommands, List.forall_mem_cons]
  exact ⟨fun s => peersSound_of_roster (badCommand_roster s), takeCommand_roster _ _ fun _ _ => rfl,
    takeCommand_roster _ _ ownConfigure_roster, takeCommand_peersSound _ _ ownStart_peersSound, takeCommand_peersSound _ _ ownStop_peersSound,
    takeCommand_peersSound _ _ ownLeave_peersSound, takeCommand_roster _ _ fun _ _ => rfl, takeCommand_roster _ _ fun _ _ => rfl,
    takeCommand_roster _ _ ownReadPeer_roster, takeCommand_roster _ _ ownReadAction_roster, takeCommand_roster _ _ ownPropose_roster,
    takeCommand_roster _ _ ownSchedule_roster, takeCommand_roster _ _ ownCancel_roster, takeCommand_roster _ _ ownTakeReport_roster,
    takeCommand_roster _ _ ownTakeCapture_roster, List.forall_mem_nil _⟩

/-! ### The boundary -/

theorem settleFinding_peersSound (h : s.peersSound) : (settleFinding s).peersSound := by
  have hkept {t : State} (ht : t.roster = s.roster) : t.peersSound := peersSound_of_roster ht h
  unfold settleFinding
  split
  · exact h
  · exact hkept (frameStart_roster s)
  · exact falseStart_peersSound _ h
  · exact hkept (arbitrationLost_roster s)
  · exact collision_peersSound _ h
  · exact driverFailure_peersSound _ h
  · exact stopError_peersSound _ h
  · exact gapExpiry_peersSound _ h
  · exact hkept (checkComplete_roster s)
  · exact frameCompleted_peersSound h
  · exact hkept (receivedFrameEnd_roster s)
  · exact hkept (lengthAbove24_roster s)
  · split
    · exact syncAccepted_peersSound _ h
    · exact leaveAccepted_peersSound _ h
    · exact proposeAccepted_peersSound _ h
    · exact commitAccepted_peersSound _ h
    · exact cancelAccepted_peersSound _ h
    · exact markAccepted_peersSound _ h
    · exact acceptUnknown_peersSound _ h

/-- The deadlines, the firings and the captures of a period leave what the soundness of the table reads. -/
theorem settleTable_roster (s : State) : (settleCaptures (settleActions (settleDeadlines s))).roster = s.roster := by
  have hfirings (n : Nat) (t : State) : (settleFirings n t).roster = t.roster := by
    induction n generalizing t with
    | zero => rfl
    | succ n ih => exact (ih _).trans (actionDue_roster t)
  have hdeadlines : (settleDeadlines s).roster = s.roster :=
    (foldl_roster (fun s id => followUpDeadline_roster id s) ..).trans (foldl_roster (fun s id => deadlineEvent_roster id s) ..)
  have hactions : (settleActions (settleDeadlines s)).roster = s.roster :=
    (hfirings ..).trans ((foldl_roster (fun s c => pulseEnd_roster c s) ..).trans hdeadlines)
  simp only [settleCaptures, captureEdge_roster, hactions]

/-- The events of a period that are still outstanding at its end, one behind the other. -/
theorem settle_peersSound (h : s.peersSound) : (settle s).peersSound := by
  have hline := lineStuck_peersSound .stateFirst (settleFinding_peersSound (stepNotice_peersSound true h))
  have hquiet := peersSound_of_roster (lineQuiet_roster _) hline
  have hstarted := peersSound_of_roster (roundStart_roster _) (listenTimeout_peersSound hquiet)
  have hrounds := roundClose_peersSound ⟨[], .noticesDiscardMove⟩ hstarted
  have htable := peersSound_of_roster (settleTable_roster _) hrounds
  have htransaction : (takeTransaction _).peersSound :=
    List.foldlRecOn hostCommands _ htable fun t ht f hf => hostCommands_peersSound f hf t ht
  exact peersSound_of_roster (access_roster _) htransaction

theorem commonTimeAdvance_peersSound (pins : Pins) (h : s.peersSound) : (commonTimeAdvance pins s).peersSound := by
  have hboundary (t : State) : (boundary t).roster = t.roster := rfl
  exact peersSound_of_roster ((readInputs_roster ..).trans (hboundary _)) (settle_peersSound h)

/-! ### Every row -/

/-- Every row answers a next state whose Peer Table is sound where the row's first state's was. -/
theorem exec_peersSound (i : Instr) (h : s.peersSound) : ∃ t, exec i s = .next t ∧ t.peersSound := by
  have hkept {t : State} (ht : t.roster = s.roster) : t.peersSound := peersSound_of_roster ht h
  have hreset (p : StrapPins) : (powerOn p s).peersSound := peersSound_empty rfl rfl rfl
  have hcommand (f : State → State) (hf : f ∈ hostCommands) : (f s).peersSound := hostCommands_peersSound f hf s h
  simp only [hostCommands, List.forall_mem_cons] at hcommand
  obtain ⟨hbad, hnop, hconfigure, hstart, hstop, hleave, htime, hstatus, hpeer, haction, hpropose, hschedule, hcancel, hreport,
    hcapture, _⟩ := hcommand
  cases i with
  | powerOnReset pins => exact ⟨_, exec_powerOnReset pins s, hreset pins⟩
  | resetN pins => exact ⟨_, exec_resetN pins s, hreset pins⟩
  | badCommand => exact ⟨_, exec_badCommand s, hbad⟩
  | nop => exact ⟨_, exec_nop s, hnop⟩
  | configure => exact ⟨_, exec_configure s, hconfigure⟩
  | start => exact ⟨_, exec_start s, hstart⟩
  | stop => exact ⟨_, exec_stop s, hstop⟩
  | leave => exact ⟨_, exec_leave s, hleave⟩
  | readTime => exact ⟨_, exec_readTime s, htime⟩
  | readStatus => exact ⟨_, exec_readStatus s, hstatus⟩
  | readPeer => exact ⟨_, exec_readPeer s, hpeer⟩
  | readAction => exact ⟨_, exec_readAction s, haction⟩
  | propose => exact ⟨_, exec_propose s, hpropose⟩
  | schedule => exact ⟨_, exec_schedule s, hschedule⟩
  | cancel => exact ⟨_, exec_cancel s, hcancel⟩
  | takeReport => exact ⟨_, exec_takeReport s, hreport⟩
  | takeCapture => exact ⟨_, exec_takeCapture s, hcapture⟩
  | lineQuiet => exact ⟨_, exec_lineQuiet s, hkept (lineQuiet_roster s)⟩
  | lineStuck o => exact ⟨_, exec_lineStuck o s, lineStuck_peersSound o h⟩
  | access => exact ⟨_, exec_access s, hkept (access_roster s)⟩
  | frameStart => exact ⟨_, exec_frameStart s, hkept (frameStart_roster s)⟩
  | falseStart o => exact ⟨_, exec_falseStart o s, falseStart_peersSound o h⟩
  | stopError o => exact ⟨_, exec_stopError o s, stopError_peersSound o h⟩
  | gapExpiry o => exact ⟨_, exec_gapExpiry o s, gapExpiry_peersSound o h⟩
  | arbitrationLost => exact ⟨_, exec_arbitrationLost s, hkept (arbitrationLost_roster s)⟩
  | collision o => exact ⟨_, exec_collision o s, collision_peersSound o h⟩
  | driverFailure o => exact ⟨_, exec_driverFailure o s, driverFailure_peersSound o h⟩
  | checkComplete => exact ⟨_, exec_checkComplete s, hkept (checkComplete_roster s)⟩
  | frameCompleted => exact ⟨_, exec_frameCompleted s, frameCompleted_peersSound h⟩
  | syncAccepted o => exact ⟨_, exec_syncAccepted o s, syncAccepted_peersSound o h⟩
  | leaveAccepted o => exact ⟨_, exec_leaveAccepted o s, leaveAccepted_peersSound o h⟩
  | proposeAccepted o => exact ⟨_, exec_proposeAccepted o s, proposeAccepted_peersSound o h⟩
  | commitAccepted o => exact ⟨_, exec_commitAccepted o s, commitAccepted_peersSound o h⟩
  | cancelAccepted o => exact ⟨_, exec_cancelAccepted o s, cancelAccepted_peersSound o h⟩
  | markAccepted o => exact ⟨_, exec_markAccepted o s, markAccepted_peersSound o h⟩
  | listenTimeout => exact ⟨_, exec_listenTimeout s, listenTimeout_peersSound h⟩
  | roundStart => exact ⟨_, exec_roundStart s, hkept (roundStart_roster s)⟩
  | roundClose o => exact ⟨_, exec_roundClose o s, roundClose_peersSound o h⟩
  | stepNotice first => exact ⟨_, exec_stepNotice first s, stepNotice_peersSound first h⟩
  | actionDue => exact ⟨_, exec_actionDue s, hkept (actionDue_roster s)⟩
  | pulseEnd c => exact ⟨_, exec_pulseEnd c s, hkept (pulseEnd_roster c s)⟩
  | deadlineEvent id => exact ⟨_, exec_deadlineEvent id s, hkept (deadlineEvent_roster id s)⟩
  | followUpDeadline id => exact ⟨_, exec_followUpDeadline id s, hkept (followUpDeadline_roster id s)⟩
  | captureEdge => exact ⟨_, exec_captureEdge s, hkept (captureEdge_roster s)⟩
  | commonTimeAdvance pins => exact ⟨_, exec_commonTimeAdvance pins s, commonTimeAdvance_peersSound pins h⟩
  | resetNAsserted => exact ⟨_, exec_resetNAsserted s, h⟩
  | receivedFrameEnd => exact ⟨_, exec_receivedFrameEnd s, hkept (receivedFrameEnd_roster s)⟩
  | lengthAbove24 => exact ⟨_, exec_lengthAbove24 s, hkept (lengthAbove24_roster s)⟩

/-- Settles O58: a SYNC, a LEAVE and the judgements of a close write sound entries with the samples that go with them, resets and START
empty the table, and every other row leaves what its soundness reads (`exec_peersSound`). -/
theorem stepKeepsThePeersSound : Obligations.StepKeepsThePeersSound := by
  intro s t hstep h
  unfold step at hstep
  split at hstep
  · cases hstep
    exact h
  · rename_i i rest _
    obtain ⟨u, hexec, hu⟩ := exec_peersSound (s := { s with pending := rest }) i h
    cases hexec.symm.trans hstep
    exact hu

end Sys2Proof.Machine
end

section
/-! PROOFS. NOP and the snapshots (O6), and LEAVE (O32). -/

namespace Sys2Proof.Machine

variable {s : State} {n : Station} {f : Frame} {filler : List Byte}

/-! ### Snapshots -/

/-- The argument byte of a snapshot command, as its field (R179). -/
theorem field_argument (b : Byte) : field 0 1 [b] = b.toNat := field_byte rfl

/-- The status bytes with the flag and the two counts written out (R176). -/
theorem statusBytes_eq (s : State) :
    s.statusBytes =
      byte1 s.ctl.state.code ++ byte1 s.ctl.faultCause.code ++ byte1 s.own.val ++ byte1 (speedCode s.straps.speed)
        ++ setBytes s.members ++ beBytes 2 s.rounds.round ++ signedBytes 8 s.rounds.lastCorrection
        ++ byte1 (if s.rounds.peered then 1 else 0) ++ signedBytes 4 s.base.trim ++ signedBytes 4 s.base.slew
        ++ byte1 s.engine.run ++ byte1 (s.table.entries.countP fun e => e.scope == .shared)
        ++ byte1 (s.table.entries.countP fun e => e.scope == .loc) ++ byte1 s.reports.records.length
        ++ byte1 s.capture.records.length ++ byte1 s.capture.marks.length := by
  have hpeered : s.rounds.peered.toNat = if s.rounds.peered then 1 else 0 := by cases s.rounds.peered <;> rfl
  simp only [State.statusBytes, State.sharedCount, State.localCount, hpeered, List.countP_eq_length_filter]

theorem readPeer_station (h : s.holds 0x12 [BitVec.ofNat 8 n.val] filler) :
    commandReadPeer s = s.answered .ok ((if n = s.own then Peer.absent else s.peer n).bytes n) := by
  have hfield : field 0 1 [BitVec.ofNat 8 n.val] = n.val := by
    rw [field_argument, BitVec.toNat_ofNat, Nat.mod_eq_of_lt (by omega)]
  rw [commandReadPeer, takeCommand_holds (n := 1) h rfl, ownReadPeer]
  simp only [hfield, n.isLt, dite_true]
  rfl

/-- A snapshot of a station above 15 is refused (R70, R171). -/
theorem readPeer_beyond {b : Byte} (hb : 15 < b.toNat) (h : s.holds 0x12 [b] filler) :
    commandReadPeer s = s.answered .badArg [] := by
  rw [commandReadPeer, takeCommand_holds (n := 1) h rfl, ownReadPeer, dif_neg (by rw [field_argument]; omega)]
  rfl

/-- The snapshot of an entry by its place in the due list (R129). -/
theorem readAction_place {b : Byte} (h : s.holds 0x13 [b] filler) :
    commandReadAction s =
      if 31 < b.toNat then s.answered .badArg []
      else
        match s.table.entries[b.toNat]? with
        | some e =>
          s.answered .ok (e.bytes s.table.entries.length (if e.scope = .shared then some (e.due - s.cfg.marginNs) else none))
        | none => s.answered .empty [BitVec.ofNat 8 s.table.entries.length] := by
  rw [commandReadAction, takeCommand_holds (n := 1) h rfl, ownReadAction, field_argument]
  by_cases hb : 31 < b.toNat
  · rw [if_pos hb, if_neg (by omega)]
    rfl
  · rw [if_neg hb, if_pos (by omega), show (clearEnded s).table = s.table from rfl]
    cases s.table.entries[b.toNat]? <;> rfl

/-- Settles O6: a whole command reaches its owner (`takeCommand_holds`), and each owner answers with the snapshot alone. -/
theorem nopAndSnapshotsChangeNothing : Obligations.NopAndSnapshotsChangeNothing := by
  refine ⟨fun s filler h => ?_, fun s filler h => ?_, fun s n filler h => ?_, fun s b filler hb h => ?_, fun s b filler h => ?_⟩
  · exact congrArg Host.Outcome.next (takeCommand_holds h rfl ownNop)
  · rw [exec_readStatus, commandReadStatus, takeCommand_holds (n := 0) h rfl, ownReadStatus, ← statusBytes_eq]
    rfl
  · exact congrArg Host.Outcome.next (readPeer_station h)
  · exact congrArg Host.Outcome.next (readPeer_beyond hb h)
  · exact congrArg Host.Outcome.next (readAction_place h)

/-! ### LEAVE -/

/-- The entry of a leaving member goes with a left notice, behind its PEER_DROPPED; any other with PEER_DROPPED alone (R63, R65). -/
theorem dropPeer_eq (n : Station) (cause : DropCause) (s : State) :
    let t : State :=
      { s with peers := s.peers.set n Peer.absent, reports.records := s.reported (.peerDropped n cause) s.ctl.state }
    dropPeer n cause s = if (s.peer n).member then leftNotice n t else t := rfl

theorem dropPeer_acked (n : Station) (cause : DropCause) (s : State) : (dropPeer n cause s).acked = dropPeer n cause s.acked := by
  have hpeer : s.acked.peer n = s.peer n := rfl
  rw [dropPeer_eq, dropPeer_eq, hpeer]
  split
  · exact leftNotice_acked ..
  · rfl

theorem leaveReceived_acked (n : Station) (s : State) : (leaveReceived n s).acked = leaveReceived n s.acked := by
  have hpeer : s.acked.peer n = s.peer n := rfl
  rw [leaveReceived, leaveReceived, hpeer]
  split
  · exact dropPeer_acked ..
  · rfl

/-- LEAVE_ACCEPTED in JOINING, SYNCED and HOLDOVER: what the LEAVE does, on the acked state (R30). -/
theorem leaveAccepted_takes (haccepts : s.accepts .leave f n) (hpart : s.ctl.state.takesPart = true) (o : FaultOrder) :
    leaveAccepted o s = leaveReceived n (s.afterAcceptance f true) := by
  have ⟨_, hframe, _⟩ := haccepts
  rw [← acked_atAcceptance hframe, ← leaveReceived_acked, leaveAccepted, acceptFrame_accepts haccepts,
    handOn_acked (s := atAcceptance s) (t := leaveReceived n (atAcceptance s)) hpart rfl]
  rfl

/-- Settles O32: an absent sender's LEAVE is acked and no more, and a present one's drops its entry (`dropPeer_eq`). -/
theorem leaveEmptiesItsSendersEntry : Obligations.LeaveEmptiesItsSendersEntry := by
  intro s o f n haccepts hpart
  rw [exec_leaveAccepted, leaveAccepted_takes haccepts hpart, leaveReceived,
    show (s.afterAcceptance f true).peer n = s.peer n from rfl]
  refine ⟨fun habsent => ?_, fun hpresent => ?_⟩
  · simp [habsent]
  · rw [if_pos hpresent, dropPeer_eq]
    intro t
    refine ⟨fun hmember => ?_, fun hmember => ?_⟩
    · exact congrArg Host.Outcome.next (if_neg (Bool.eq_false_iff.1 hmember))
    · exact congrArg Host.Outcome.next (if_pos hmember)

end Sys2Proof.Machine
end

section
/-! PROOFS. The judgement of each entry at a close (O41), and the close in its stages (O39). -/

namespace Sys2Proof.Machine

variable {s t : State} {n m : Station} {c : Int}

/-! ### The entries behind their judgements -/

theorem peer_of_set {p : Peer} (ht : t.peers = s.peers.set n p) (m : Station) : t.peer m = if m = n then p else s.peer m := by
  have hset : t.peer m = (setPeer n p s).peer m := congrArg (·[m]) ht
  rw [hset]
  split
  · rename_i he
    rw [he, setPeer_same]
  · exact setPeer_other p s ‹_›

theorem State.sameButVerdicts.peers_eq {peers : Vector Peer 16} (h : s.sameButVerdicts peers t) : t.peers = peers := by
  obtain ⟨_, _, ⟨_, _, _, _, rfl, _⟩, _⟩ := h
  rfl

theorem State.sameButVerdicts.cfg_eq {peers : Vector Peer 16} (h : s.sameButVerdicts peers t) : t.cfg = s.cfg := by
  obtain ⟨_, _, ⟨_, _, _, _, rfl, _⟩, _⟩ := h
  rfl

theorem State.sameButVerdicts.samples_eq {peers : Vector Peer 16} (h : s.sameButVerdicts peers t) :
    t.rounds.samples = s.rounds.samples := by
  obtain ⟨_, _, ⟨_, _, _, _, rfl, _⟩, _⟩ := h
  rfl

theorem judgePeer_peer (c : Int) (n m : Station) (s : State) :
    (judgePeer c n s).peer m = if m = n then (s.peer n).judged s.cfg.syncTolerance c else s.peer m :=
  peer_of_set (judgePeer_sameButVerdicts c n s).peers_eq m

/-- Stations that stand once are judged once, whatever their order (R69). -/
theorem closeStage4_peer (c : Int) {order : List Station} (honce : order.Nodup) (m : Station) (s : State) :
    (closeStage4 c order s).peer m = if m ∈ order then (s.peer m).judged s.cfg.syncTolerance c else s.peer m := by
  induction order generalizing s with
  | nil => simp [closeStage4]
  | cons n rest ih =>
    have ⟨hn, hrest⟩ := List.nodup_cons.1 honce
    have hstep : closeStage4 c (n :: rest) s = closeStage4 c rest (judgePeer c n s) := rfl
    rw [hstep, ih hrest, judgePeer_peer, (judgePeer_sameButVerdicts c n s).cfg_eq]
    by_cases hm : m = n
    · simp [hm, hn]
    · simp [hm]

/-- Every station stands once in the order of a close. -/
theorem peerOrder_nodup {o : CloseOrder} (h : o.stations.Nodup) : (peerOrder o).Nodup := by
  refine List.nodup_append.2 ⟨h, List.Nodup.filter _ (by decide), fun a ha b hb he => ?_⟩
  have hnew := List.of_mem_filter hb
  simp [← he, ha] at hnew

theorem mem_peerOrder (o : CloseOrder) (n : Station) : n ∈ peerOrder o := by
  by_cases h : n ∈ o.stations
  · exact List.mem_append_left _ h
  · exact List.mem_append_right _ (List.mem_filter.2 ⟨mem_allStations n, by simpa using h⟩)

/-! ### A close without a merge candidate -/

/-- The entry's last SYNC makes its sample one of a merge candidate (R85). -/
def Peer.merges (p : Peer) : Bool := (p.reported == some .synced || p.reported == some .holdover) && p.disagreeing

theorem isCandidate_eq (s : State) (x : Station × Int) :
    isCandidate s.cfg.thresholdNs s.peers x = ((s.peer x.1).merges && exceeds x.2 s.cfg.thresholdNs) := rfl

theorem candidates_nil_iff :
    s.candidates = [] ↔
      ∀ x ∈ s.rounds.samples, ¬((s.peer x.1).merges = true ∧ exceeds x.2 s.cfg.thresholdNs = true) := by
  simp only [State.candidates, List.map_eq_nil_iff, List.filter_eq_nil_iff, isCandidate_eq, Bool.and_eq_true]

/-- A judgement drops the entry, or keeps what its last SYNC carried. -/
theorem judged_carries (tolerance : Nat) (c : Int) (p : Peer) :
    p.judged tolerance c = Peer.absent
      ∨ (p.judged tolerance c).reported = p.reported ∧ (p.judged tolerance c).disagreeing = p.disagreeing := by
  rcases judgement_cases p with hpresent | ⟨hpresent, hsample | ⟨v, hsample, hmember | ⟨hmember, hsuspect | hsuspect⟩⟩⟩
  · rw [judged_absent tolerance hpresent]
    exact .inr ⟨rfl, rfl⟩
  · rw [judged_unsampled tolerance hpresent hsample]
    split
    · exact .inl rfl
    · exact .inr ⟨rfl, rfl⟩
  all_goals right
  · rw [judged_member tolerance hpresent hsample hmember]
    simp only [apply_ite Peer.reported, apply_ite Peer.disagreeing, ite_self, and_self]
  · rw [judged_suspect tolerance hpresent hsample hmember hsuspect]
    simp only [apply_ite Peer.reported, apply_ite Peer.disagreeing, ite_self, and_self]
  · rw [judged_other tolerance hpresent hsample hmember hsuspect]
    exact ⟨rfl, rfl⟩

/-- No judgement makes an entry one of a merge candidate. -/
theorem merges_of_judged {p : Peer} {tolerance : Nat} (h : (p.judged tolerance c).merges = true) : p.merges = true := by
  rcases judged_carries tolerance c p with habsent | ⟨hreported, hdisagreeing⟩
  · rw [habsent] at h
    cases h
  · rwa [Peer.merges, hreported, hdisagreeing] at h

/-- The judgements of a close write the entries, and make no merge candidate. -/
theorem closeStage4_sameButVerdicts (c : Int) (order : List Station) (s : State) :
    ∃ peers, s.sameButVerdicts peers (closeStage4 c order s) ∧ ∀ n : Station, peers[n].merges = true → (s.peer n).merges = true := by
  refine List.foldlRecOn
    (motive := fun t => ∃ peers, s.sameButVerdicts peers t ∧ ∀ n : Station, peers[n].merges = true → (s.peer n).merges = true)
    order _ ⟨s.peers, ⟨_, _, sameButEntries_refl s, .inl rfl⟩, fun _ h => h⟩ fun t ⟨peers, ht, hmerges⟩ n _ => ?_
  have hstep := judgePeer_sameButVerdicts c n t
  refine ⟨_, ht.trans hstep, fun m hm => ?_⟩
  have hold (k : Station) (hk : (t.peer k).merges = true) : (s.peer k).merges = true :=
    hmerges k (by rwa [State.peer, ht.peers_eq] at hk)
  have hpeer : (judgePeer c n t).peer m = (t.peers.set n ((t.peer n).judged t.cfg.syncTolerance c))[m] := by
    rw [State.peer, hstep.peers_eq]
  rw [← hpeer, judgePeer_peer] at hm
  split at hm
  · rename_i he
    exact he ▸ hold n (merges_of_judged hm)
  · exact hold m hm

/-- Without a merge candidate, no judgement makes the station yield. -/
theorem closeStage4_yieldTarget (order : List Station) (h : s.candidates = []) : (closeStage4 c order s).yieldTarget = none := by
  obtain ⟨peers, hframe, hmerges⟩ := closeStage4_sameButVerdicts c order s
  have hnone : (closeStage4 c order s).candidates = [] := by
    rw [candidates_nil_iff, hframe.samples_eq, hframe.cfg_eq]
    rw [candidates_nil_iff] at h
    rintro x hx ⟨hm, hfar⟩
    rw [State.peer, hframe.peers_eq] at hm
    exact h x hx ⟨hmerges x.1 hm, hfar⟩
  rw [State.yieldTarget, hnone]
  rfl

theorem closeStage6_peers (c : Int) (s : State) : (closeStage6 c s).peers = s.peers := by
  unfold closeStage6
  split
  · split
    · rfl
    · split <;> rfl
  · rfl

theorem closeStage7_peers (before : StationState) (s : State) : (closeStage7 before s).peers = s.peers := by
  unfold closeStage7
  split <;> rfl

/-! ### The requests of a close -/

theorem requestSlew_eq (q : Int) (s : State) :
    requestSlew q s =
      ({ s with base.slew := if s.ctl.state.takesPart then clampTo slewLimit q else s.base.slew },
        s.ctl.state.takesPart && clampTo slewLimit q != q) := by
  unfold requestSlew
  cases s.ctl.state.takesPart <;> rfl

theorem requestTrim_eq (v : Int) (s : State) :
    requestTrim v s =
      ({ s with base.trim := if takesTrim s.ctl.state then clampTo trimLimit v else s.base.trim },
        takesTrim s.ctl.state && clampTo trimLimit v != v) := by
  unfold requestTrim
  cases takesTrim s.ctl.state <;> rfl

/-- A close requests no trim without a used sample (R83), and none in HOLDOVER (R43). -/
def State.closeTrims (s : State) (count : Nat) : Bool := decide (2 ≤ count) && takesTrim s.ctl.state

/-- The rate trim that a close wants (R83). -/
def State.wantedTrim (s : State) (q : Int) : Int := s.base.trim + q.tdiv 4

/-- The requests of a close with their one RATE_LIMIT (R82 to R84). -/
theorem closeStage3_eq (c : Int) (count : Nat) (s : State) :
    let q := slewQuotient c (roundMs s.cfg.roundCode)
    closeStage3 c count s =
      { s with
        base.slew := if s.ctl.state.takesPart then clampTo slewLimit q else s.base.slew
        base.trim := if s.closeTrims count then clampTo trimLimit (s.wantedTrim q) else s.base.trim
        reports.records :=
          if (s.ctl.state.takesPart && clampTo slewLimit q != q)
              || (s.closeTrims count && clampTo trimLimit (s.wantedTrim q) != s.wantedTrim q) then
            s.reported .rateLimit s.ctl.state
          else s.reports.records } := by
  intro q
  rw [closeStage3, requestSlew_eq, State.closeTrims]
  by_cases hcount : 2 ≤ count
  · simp only [hcount, if_true, requestTrim_eq, decide_true, Bool.true_and, State.wantedTrim, q]
    split <;> rfl
  · simp only [hcount, if_false, decide_false, Bool.false_and]
    split <;> rfl

theorem closeStage1_eq (s : State) :
    closeStage1 s =
      { s with
        rounds.windowOpen := false
        engine.needs := if s.rounds.syncSent then s.engine.needs else s.engine.needs.filter fun n => n.source != .roundEngine } := by
  unfold closeStage1
  cases h : s.rounds.syncSent <;> simp [h, withdrawNeed]

theorem closeDue_iff :
    s.closeDue = true ↔
      s.rounds.active = true ∧ s.rounds.windowOpen = true ∧ s.noticeDue = none
        ∧ s.rounds.round * s.cfg.roundLength + s.cfg.roundLength / 2 ≤ s.now.toNat := by
  simp only [State.closeDue, Bool.and_eq_true, decide_eq_true_iff, and_assoc, Option.isNone_iff_eq_none]
  rfl

/-! ### The close in its stages -/

/-- The state behind the correction and the requests of a close (R79, stages 1 to 3). -/
def State.closeRequested (s : State) : State :=
  closeStage3 (correction s.usedSamples) (s.usedSamples.length + 1)
    { closeStage1 s with rounds.lastCorrection := correction s.usedSamples }

theorem roundClose_eq (h : s.closeDue = true) (o : CloseOrder) :
    roundClose o s =
      clearSamples (closeStages567 (correction s.usedSamples) o s.ctl.state
        (closeStage4 (correction s.usedSamples) (peerOrder o) s.closeRequested)) := by
  rw [roundClose, if_pos h]
  rfl

theorem closeRequested_eq (s : State) :
    let c := correction s.usedSamples
    let q := slewQuotient c (roundMs s.cfg.roundCode)
    let trims := s.closeTrims (s.usedSamples.length + 1)
    s.closeRequested =
      { s with
        engine.needs := if s.rounds.syncSent then s.engine.needs else s.engine.needs.filter fun n => n.source != .roundEngine
        base.slew := if s.ctl.state.takesPart then clampTo slewLimit q else s.base.slew
        base.trim := if trims then clampTo trimLimit (s.wantedTrim q) else s.base.trim
        rounds.windowOpen := false
        rounds.lastCorrection := c
        reports.records :=
          if (s.ctl.state.takesPart && clampTo slewLimit q != q)
              || (trims && clampTo trimLimit (s.wantedTrim q) != s.wantedTrim q) then
            s.reported .rateLimit s.ctl.state
          else s.reports.records } := by
  intro c q trims
  rw [State.closeRequested, closeStage3_eq, closeStage1_eq]
  rfl

/-- The stages behind the requests read the entries, the samples and the configuration of the start of the close. -/
theorem closeRequested_reads (s : State) :
    s.closeRequested.peers = s.peers ∧ s.closeRequested.cfg = s.cfg ∧ s.closeRequested.candidates = s.candidates := by
  rw [closeRequested_eq]
  exact ⟨rfl, rfl, rfl⟩

/-- A close without a merge candidate judges each entry once and clears its sample (R68, R79). -/
theorem roundClose_peer {o : CloseOrder} (hdue : s.closeDue = true) (hcandidates : s.candidates = []) (honce : o.stations.Nodup)
    (n : Station) :
    (roundClose o s).peer n = { (judgePeer (correction s.usedSamples) n s).peer n with sample := none } := by
  obtain ⟨hpeers, hcfg, hsame⟩ := closeRequested_reads s
  have hcleared (u : State) : (clearSamples u).peer n = { u.peer n with sample := none } := by simp [State.peer, clearSamples]
  have hstages (u : State) : (closeStage7 s.ctl.state (closeStage6 (correction s.usedSamples) u)).peer n = u.peer n := by
    rw [State.peer, closeStage7_peers, closeStage6_peers]
    rfl
  have hrequested : s.closeRequested.peer n = s.peer n := congrArg (·[n]) hpeers
  rw [roundClose_eq hdue, closeStages567, closeStage4_yieldTarget _ (hsame.trans hcandidates)]
  rw [hcleared, hstages, closeStage4_peer _ (peerOrder_nodup honce), if_pos (mem_peerOrder o n), judgePeer_peer, if_pos rfl,
    hrequested, hcfg]

/-- Settles O41: a close without a candidate judges each entry once (`roundClose_peer`), and the cases of a judgement are those of
`judgePeer`. -/
theorem closeJudgesEachPeer : Obligations.CloseJudgesEachPeer := by
  refine ⟨fun s o hactive hopen hnotice htime hcandidates honce => ⟨_, rfl, fun n => ?_⟩, fun s c n => ?_⟩
  · exact roundClose_peer (closeDue_iff.2 ⟨hactive, hopen, hnotice, htime⟩) hcandidates honce n
  · intro p write bad
    have hbad (v : Int) : exceeds (v - c) s.cfg.syncTolerance = true ↔ bad v := decide_eq_true_iff
    refine ⟨judgePeer_absent, fun hpresent hsample hrun => ?_, fun hpresent hsample hrun => ?_, fun v hpresent hsample => ?_⟩
    · rw [judgePeer_unsampled hpresent hsample, if_neg (Nat.not_le.2 hrun)]
      rfl
    · rw [judgePeer_unsampled hpresent hsample, if_pos hrun, dropPeer_eq]
      exact ⟨fun hmember => if_neg (Bool.eq_false_iff.1 hmember), fun hmember => if_pos hmember⟩
    refine ⟨fun hmember hgood => ?_, fun hmember hv hrun => ?_, fun hmember hv hrun => ?_, fun hmember hsuspect hv => ?_,
      fun hmember hsuspect hgood hrun => ?_, fun hmember hsuspect hgood hrun => ?_, fun hmember hsuspect => ?_⟩
    · rw [judgePeer_member hpresent hsample hmember, if_neg (by rwa [hbad])]
      rfl
    · rw [judgePeer_member hpresent hsample hmember, if_pos ((hbad v).2 hv), if_neg (Nat.not_le.2 hrun)]
      rfl
    · rw [judgePeer_member hpresent hsample hmember, if_pos ((hbad v).2 hv), if_pos hrun]
      rfl
    · rw [judgePeer_suspect hpresent hsample hmember hsuspect, if_pos ((hbad v).2 hv)]
      rfl
    · rw [judgePeer_suspect hpresent hsample hmember hsuspect, if_neg (by rwa [hbad]), if_neg (Nat.not_le.2 hrun)]
      rfl
    · intro joins restored
      have hjoins : p.rejoins = true ↔ joins := by simp [Peer.rejoins, joins]
      have hrestored (member : Bool) (hmember' : p.rejoins = member) :
          judgePeer c n s = if member then joinedNotice (restored member) else restored member := by
        rw [judgePeer_suspect hpresent hsample hmember hsuspect, if_neg (by rwa [hbad]), if_pos hrun]
        subst hmember'
        rfl
      refine ⟨fun hstays => ?_, fun hj hstate => ?_, fun hj hstate => ?_, fun hj hstate => ?_⟩
      · exact hrestored false (Bool.eq_false_iff.2 fun hr => hstays (hjoins.1 hr))
      · exact (hrestored true (hjoins.2 hj)).trans (joinedNotice_joining (s := restored true) hstate)
      · exact (hrestored true (hjoins.2 hj)).trans (joinedNotice_synced (s := restored true) hstate)
      · refine (hrestored true (hjoins.2 hj)).trans ((joinedNotice_holdover (s := restored true) hstate).trans ?_)
        rw [moveState, show (restored true).ctl.state = .holdover from hstate]
        rfl
    · rw [judgePeer_other hpresent hsample hmember hsuspect]
      rfl

end Sys2Proof.Machine
end

section
/-! PROOFS. The close steers the clock (O39). -/

namespace Sys2Proof.Machine

variable {s t u : State} {c q : Int}

/-! ### The correction and the requests -/

theorem usedSample_eq (s : State) (x : Station × Int) :
    usedSample s.cfg.thresholdNs s.peers x =
      ((s.peer x.1).member && !(s.peer x.1).suspect && (s.peer x.1).reported == some .synced
        && decide (x.2.natAbs ≤ s.cfg.stepThreshold * 1000)) := by
  have hnear : (!exceeds x.2 s.cfg.thresholdNs) = decide (x.2.natAbs ≤ s.cfg.stepThreshold * 1000) := by
    rw [exceeds, ← decide_not, decide_eq_decide, Nat.not_lt, ConfigRecord.thresholdNs]
  rw [← hnear]
  rfl

theorem clampTo_ne_iff (limit : Nat) (v : Int) : (clampTo limit v != v) = true ↔ v < -limit ∨ limit < v := by
  rw [bne_iff_ne, clampTo]
  omega

/-- A station that takes part takes a trim request outside HOLDOVER alone (R43). -/
theorem takesTrim_eq {state : StationState} (h : state.takesPart = true) : takesTrim state = (state != .holdover) := by
  cases state with
  | off | listen | leaving | fault => cases h
  | joining | synced | holdover => rfl

theorem closeTrims_eq (h : s.ctl.state.takesPart = true) (used : List Int) :
    s.closeTrims (used.length + 1) = (!used.isEmpty && s.ctl.state != .holdover) := by
  rw [State.closeTrims, takesTrim_eq h]
  cases used <;> simp

/-- The requests of a station that takes part, with their limits (R82 to R84). -/
theorem closeRequested_takesPart (h : s.ctl.state.takesPart = true) :
    let c := correction s.usedSamples
    let q := (c * 1000).tdiv (roundMs s.cfg.roundCode)
    let wanted := s.base.trim + q.tdiv 4
    let trims : Bool := !s.usedSamples.isEmpty && s.ctl.state != .holdover
    s.closeRequested =
      { s with
        engine.needs := if s.rounds.syncSent then s.engine.needs else s.engine.needs.filter fun n => n.source != .roundEngine
        base.slew := max (-500000) (min 500000 q)
        base.trim := if trims then max (-200000) (min 200000 wanted) else s.base.trim
        rounds.windowOpen := false
        rounds.lastCorrection := c
        reports.records :=
          if q < -500000 ∨ 500000 < q ∨ (trims = true ∧ (wanted < -200000 ∨ 200000 < wanted)) then
            s.reported .rateLimit s.ctl.state
          else s.reports.records } := by
  intro c q wanted trims
  have hlimited :
      ((s.ctl.state.takesPart && clampTo slewLimit q != q) || (trims && clampTo trimLimit wanted != wanted)) = true
        ↔ q < -500000 ∨ 500000 < q ∨ (trims = true ∧ (wanted < -200000 ∨ 200000 < wanted)) := by
    rw [h, Bool.or_eq_true, Bool.and_eq_true, Bool.and_eq_true, clampTo_ne_iff, clampTo_ne_iff, ← or_assoc]
    simp [slewLimit, trimLimit]
  rw [closeRequested_eq, closeTrims_eq h, if_pos h]
  simp only [← hlimited]
  rfl

/-! ### What the stages behind the requests leave -/

/-- The states differ in the entries and in what a yield or a move changes beside the pending step and the slew term, and `t` holds no need
of the Round Engine that `s` does not hold. -/
def State.sameButOutcome (s t : State) : Prop :=
  ∃ peers state joinRun peered entries needs age records,
    t = { s with
          peers := peers, ctl.state := state, rounds.joinRun := joinRun, rounds.peered := peered
          table.entries := entries, engine.needs := needs, engine.nextAge := age, reports.records := records }
      ∧ ∀ need ∈ needs, need.source = .roundEngine → need ∈ s.engine.needs

theorem sameButOutcome_refl (s : State) : s.sameButOutcome s := ⟨_, _, _, _, _, _, _, _, rfl, fun _ h _ => h⟩

theorem State.sameButOutcome.trans (h : s.sameButOutcome t) (h' : t.sameButOutcome u) : s.sameButOutcome u := by
  obtain ⟨_, _, _, _, _, _, _, _, rfl, hneeds⟩ := h
  obtain ⟨_, _, _, _, _, _, _, _, rfl, hneeds'⟩ := h'
  exact ⟨_, _, _, _, _, _, _, _, rfl, fun need hneed hsource => hneeds need (hneeds' need hneed hsource) hsource⟩

theorem closeStage4_outcome (c : Int) (order : List Station) (s : State) : s.sameButOutcome (closeStage4 c order s) := by
  obtain ⟨_, ⟨_, _, ⟨_, _, _, _, ht, hneeds⟩, _⟩, _⟩ := closeStage4_sameButVerdicts c order s
  exact ⟨_, _, _, _, _, _, _, _, ht, hneeds⟩

theorem moveState_outcome (new : StationState) (cause : MoveCause) (s : State) : s.sameButOutcome (moveState new cause s) :=
  ⟨_, _, _, _, _, _, _, _, rfl, fun _ h _ => h⟩

theorem yieldNotices_sameButEntries (left : List Station) (s : State) : s.sameButEntries (yieldNotices left s) :=
  foldl_sameButEntries (fun s n => leftNotice_sameButEntries n s) left s

theorem yieldMove_sameButEntries (s : State) : State.sameButEntries { s with ctl.state := .joining } (yieldMove s) :=
  queueReport_sameButEntries _ { s with ctl.state := .joining }

/-- What stands in front of the move of a yield leaves the same. -/
theorem sameButEntries_yieldMove (h : s.sameButEntries t) : State.sameButEntries { s with ctl.state := .joining } (yieldMove t) := by
  obtain ⟨_, _, _, _, rfl, hneeds⟩ := h
  exact State.sameButEntries.trans ⟨_, _, _, _, rfl, hneeds⟩ (yieldMove_sameButEntries _)

/-- Whatever the order of the three parts of a yield, the station is JOINING behind them (R101). -/
theorem yieldParts_sameButEntries (order : YieldOrder) (left : List Station) (s : State) :
    State.sameButEntries { s with ctl.state := .joining } (yieldParts order left s) := by
  have notices := yieldNotices_sameButEntries left
  have discard := discardShared_sameButEntries
  cases order with
  | noticesDiscardMove => exact sameButEntries_yieldMove ((notices s).trans (discard _))
  | noticesMoveDiscard => exact (sameButEntries_yieldMove (notices s)).trans (discard _)
  | discardNoticesMove => exact sameButEntries_yieldMove ((discard s).trans (notices _))
  | discardMoveNotices => exact (sameButEntries_yieldMove (discard s)).trans (notices _)
  | moveNoticesDiscard => exact (yieldMove_sameButEntries s).trans ((notices _).trans (discard _))
  | moveDiscardNotices => exact (yieldMove_sameButEntries s).trans ((discard _).trans (notices _))

theorem yieldParts_outcome (order : YieldOrder) (left : List Station) (s : State) : s.sameButOutcome (yieldParts order left s) := by
  obtain ⟨_, _, _, _, ht, hneeds⟩ := yieldParts_sameButEntries order left s
  exact ⟨_, _, _, _, _, _, _, _, ht, hneeds⟩

/-- Beside its step request (R87), a yield leaves the clock. -/
theorem yieldTo_outcome (k : Candidate) (o : CloseOrder) (s : State) :
    ∃ slew step, State.sameButOutcome { s with base.slew := slew, base.pendingStep := step } (yieldTo k o s) := by
  obtain ⟨slew, step, hstep⟩ : ∃ slew step,
      requestStep ⟨k.sample, .merge⟩ s = { s with base.slew := slew, base.pendingStep := step } := by
    unfold requestStep
    split
    · exact ⟨_, _, rfl⟩
    · exact ⟨_, _, rfl⟩
  refine ⟨slew, step, ?_⟩
  rw [yieldTo, hstep]
  refine State.sameButOutcome.trans ?_ (yieldParts_outcome ..)
  exact ⟨_, _, 0, _, _, _, _, _, rfl, fun _ h _ => h⟩

theorem closeStage6_outcome (c : Int) (s : State) : s.sameButOutcome (closeStage6 c s) := by
  unfold closeStage6
  split
  · split
    · exact ⟨_, _, _, _, _, _, _, _, rfl, fun _ h _ => h⟩
    · split
      all_goals exact ⟨_, _, _, _, _, _, _, _, rfl, fun _ h _ => h⟩
  · exact sameButOutcome_refl s

theorem closeStage7_outcome (before : StationState) (s : State) : s.sameButOutcome (closeStage7 before s) := by
  unfold closeStage7
  split
  · exact moveState_outcome ..
  · exact sameButOutcome_refl s

theorem sameButOutcome_slewed {slew : Int} {step : Option TimeStep}
    (h : State.sameButOutcome { t with base.slew := slew, base.pendingStep := step } u) (h' : s.sameButOutcome t) :
    State.sameButOutcome { s with base.slew := slew, base.pendingStep := step } u := by
  obtain ⟨_, _, _, _, _, _, _, _, rfl, hneeds⟩ := h'
  refine State.sameButOutcome.trans ?_ h
  exact ⟨_, _, _, _, _, _, _, _, rfl, hneeds⟩

/-- What the judgements and the last stages of a close leave; the pending step and the slew term move in a yield alone, which wants a
candidate. -/
theorem closeStages_outcome (c : Int) (o : CloseOrder) (before : StationState) (order : List Station) (s : State) :
    ∃ slew step,
      State.sameButOutcome { s with base.slew := slew, base.pendingStep := step }
          (closeStages567 c o before (closeStage4 c order s))
        ∧ (s.candidates = [] → slew = s.base.slew ∧ step = s.base.pendingStep) := by
  have hjudged := closeStage4_outcome c order s
  unfold closeStages567
  split
  · rename_i k hk
    obtain ⟨slew, step, hyield⟩ := yieldTo_outcome k o (closeStage4 c order s)
    refine ⟨slew, step, sameButOutcome_slewed hyield hjudged, fun hnone => ?_⟩
    rw [closeStage4_yieldTarget order hnone] at hk
    cases hk
  · exact ⟨s.base.slew, s.base.pendingStep, hjudged.trans ((closeStage6_outcome ..).trans (closeStage7_outcome ..)),
      fun _ => ⟨rfl, rfl⟩⟩

/-- Settles O39: the requests are those of `closeRequested_takesPart`, and the stages behind them leave the rest
(`closeStages_outcome`). -/
theorem closeSteersTheClock : Obligations.CloseSteersTheClock := by
  refine ⟨fun s => ?_, fun s o _ hactive hopen hnotice hpart htime => ?_, fun s o hactive hopen hnotice hpart htime => ?_⟩
  · rw [State.usedSamples, funext (usedSample_eq s)]
  · intro c q wanted trims requested judged t
    have hdue : s.closeDue = true := closeDue_iff.2 ⟨hactive, hopen, hnotice, htime⟩
    have hrequested : s.closeRequested = requested := closeRequested_takesPart hpart
    rw [exec_roundClose, roundClose_eq hdue, hrequested]
    rfl
  · intro c q
    have hdue : s.closeDue = true := closeDue_iff.2 ⟨hactive, hopen, hnotice, htime⟩
    obtain ⟨_, _, hcandidates⟩ := closeRequested_reads s
    obtain ⟨slew, step, houtcome, hsame⟩ := closeStages_outcome c o s.ctl.state (peerOrder o) s.closeRequested
    rw [hcandidates] at hsame
    rw [closeRequested_takesPart hpart] at houtcome hsame
    refine ⟨_, rfl, ?_⟩
    rw [roundClose_eq hdue, closeRequested_takesPart hpart]
    obtain ⟨_, _, _, _, _, _, _, _, ht, hneeds⟩ := houtcome
    rw [ht]
    refine ⟨rfl, rfl, rfl, rfl, fun n => ?_, ?_, hsame, fun hunsent need hneed hsource => ?_, ⟨rfl, rfl, rfl, rfl⟩,
      ⟨rfl, rfl, rfl, rfl, rfl, rfl, rfl, rfl, rfl⟩⟩
    · simp [State.peer, clearSamples]
    · refine if_congr ?_ rfl rfl
      simp
    · have hold := hneeds need hneed hsource
      simp only [hunsent, Bool.false_eq_true, if_false, List.mem_filter, hsource, bne_self_eq_false, and_false] at hold

end Sys2Proof.Machine
end

section
/-! PROOFS. The merge rule and the yield (O42). -/

namespace Sys2Proof.Machine

variable {s t u : State} {e : Entry} {id : ActionId}

/-! ### The selected candidate -/

/-- The first candidate does not stand behind the second (R85). -/
def Candidate.notBehind (a b : Candidate) : Prop :=
  b.count < a.count ∨ (b.count = a.count ∧ (a.anchor < b.anchor ∨ (a.anchor = b.anchor ∧ a.station ≤ b.station)))

theorem candidateBeats_iff {a b : Candidate} : b.beats a = true ↔ ¬a.notBehind b := by
  simp only [Candidate.beats, Candidate.notBehind, Bool.or_eq_true, Bool.and_eq_true, decide_eq_true_eq, beq_iff_eq, Fin.ext_iff,
    Fin.lt_def, Fin.le_def]
  omega

theorem candidateNotBehind_refl (a : Candidate) : a.notBehind a := .inr ⟨rfl, .inr ⟨rfl, le_rfl⟩⟩

theorem candidateNotBehind_trans {a b c : Candidate} (hab : a.notBehind b) (hbc : b.notBehind c) : a.notBehind c := by
  simp only [Candidate.notBehind, Fin.ext_iff, Fin.lt_def, Fin.le_def] at *
  omega

theorem candidateNotBehind_of_beats {a b : Candidate} (h : b.beats a = true) : b.notBehind a := by
  have hnot := candidateBeats_iff.1 h
  simp only [Candidate.notBehind, Fin.ext_iff, Fin.lt_def, Fin.le_def] at *
  omega

/-- Selection among a candidate and the rest (R85). -/
theorem selectCandidate_cons (a : Candidate) (rest : List Candidate) :
    selectCandidate (a :: rest) = some ((selectCandidate rest).elim a fun b => if b.beats a then b else a) := by
  cases h : selectCandidate rest with
  | none => simp [selectCandidate, h]
  | some b => simp only [selectCandidate, h, Option.elim_some]; split <;> rfl

theorem selectCandidate_none_iff {list : List Candidate} : selectCandidate list = none ↔ list = [] := by
  cases list with
  | nil => simp [selectCandidate]
  | cons a rest => simp [selectCandidate_cons]

/-- The selected candidate is one of the list, and none of them stands in front of it. -/
theorem selectCandidate_first {list : List Candidate} {k : Candidate} (h : selectCandidate list = some k) :
    k ∈ list ∧ ∀ m ∈ list, k.notBehind m := by
  induction list generalizing k with
  | nil => cases h
  | cons a rest ih =>
    rw [selectCandidate_cons, Option.some.injEq] at h
    cases hrest : selectCandidate rest with
    | none =>
      obtain rfl := selectCandidate_none_iff.1 hrest
      obtain rfl : a = k := h
      exact ⟨List.mem_singleton_self a, by simp [candidateNotBehind_refl]⟩
    | some b =>
      obtain ⟨hmem, hfirst⟩ := ih hrest
      rw [hrest, Option.elim_some] at h
      split at h
      case isTrue hbeats =>
        subst h
        exact ⟨List.mem_cons_of_mem a hmem, List.forall_mem_cons.2 ⟨candidateNotBehind_of_beats hbeats, hfirst⟩⟩
      case isFalse hbeats =>
        subst h
        have hab : a.notBehind b := by simpa only [candidateBeats_iff, not_not] using hbeats
        exact ⟨List.mem_cons_self,
          List.forall_mem_cons.2 ⟨candidateNotBehind_refl a, fun m hm => candidateNotBehind_trans hab (hfirst m hm)⟩⟩

theorem yieldTarget_some_iff {k : Candidate} :
    s.yieldTarget = some k ↔
      selectCandidate s.candidates = some k ∧ (s.memberCount < k.count ∨ (k.count = s.memberCount ∧ k.anchor < s.anchor)) := by
  have hyields (m : Candidate) : s.yieldsTo m = true ↔ s.memberCount < m.count ∨ (m.count = s.memberCount ∧ m.anchor < s.anchor) := by
    simp [State.yieldsTo]
  unfold State.yieldTarget
  cases selectCandidate s.candidates with
  | none => simp
  | some m =>
    by_cases hm : s.yieldsTo m = true
    · simp only [hm, if_true, Option.some.injEq]
      exact ⟨fun h => ⟨h, h ▸ (hyields m).1 hm⟩, fun ⟨h, _⟩ => h⟩
    · simp only [hm, if_false, Option.some.injEq, reduceCtorEq, false_iff]
      rintro ⟨rfl, hk⟩
      exact hm ((hyields m).2 hk)

/-! ### The entries behind left notices and the discard -/

theorem raiseFor_worksAt (kind : FrameKind) (e : Entry) (s : State) (id : ActionId) : s.WorksAt id (raiseFor kind e s) := by
  obtain ⟨_, _, he⟩ := raiseNeed_frame kind (.entry e.id) s
  rw [raiseFor, he]
  exact worksAt_of_same id rfl rfl rfl

/-- A left notice works at an entry by its id (R133). -/
theorem pruneEntry_worksAt (n : Station) (e : Entry) (s : State) : s.WorksAt e.id (pruneEntry n e s) := by
  rcases pruneEntry_cases n e s with ⟨_, _, he⟩ | ⟨_, he⟩ <;> rw [he]
  · have hput := putEntry_worksAt { e.without n with state := .committing, tries := some 0, acked := some 0, marks := none } s
    exact State.WorksAt.trans hput (raiseFor_worksAt ..)
  · exact putEntry_worksAt (e.without n) s

theorem dropHeld_worksAt (e : Entry) (s : State) : s.WorksAt e.id (queueReport (.heldDropped e.id) (removeEntry e.id s)) :=
  (removeEntry_worksAt e.id s).trans (worksAt_of_same _ rfl rfl rfl)

/-- No id stands twice in the due list of `t`, and it holds every LOCAL entry of `s`. -/
def State.keepsLocals (s t : State) : Prop := t.idsOnce ∧ ∀ e ∈ s.table.entries, e.scope = .loc → t.entry? e.id = some e

theorem keepsLocals_of_entries (hentries : u.table.entries = t.table.entries) (h : s.keepsLocals t) : s.keepsLocals u := by
  obtain ⟨honce, hkept⟩ := h
  rw [State.keepsLocals, State.idsOnce, hentries]
  exact ⟨honce, fun e he hloc => by rw [State.entry?, hentries]; exact hkept e he hloc⟩

/-- Work at entries that are none of the LOCAL ones of `s` keeps those. -/
theorem keepsLocals_foldl {f : State → Entry → State} (hf : ∀ (s : State) e, s.WorksAt e.id (f s e)) {g : Entry → Bool}
    (hg : ∀ e ∈ s.table.entries, e.scope = .loc → g e = false) (h : s.keepsLocals t) :
    s.keepsLocals ((t.table.entries.filter g).foldl f t) := by
  obtain ⟨honce, hkept⟩ := h
  refine ⟨foldl_idsOnce hf _ honce, fun e he hloc => ?_⟩
  rw [foldl_entry?_other hf, hkept e he hloc]
  intro hmem
  obtain ⟨x, hx, hid⟩ := List.mem_map.1 hmem
  obtain ⟨hx, hgx⟩ := List.mem_filter.1 hx
  have hsame : x = e := eq_of_id honce hx (entry?_mem (hkept e he hloc)) hid
  rw [hsame, hg e he hloc] at hgx
  cases hgx

/-- A left notice reaches the SHARED entries alone: LOCAL ones are ARMED (R133, R141). -/
theorem leftNotice_keepsLocals (n : Station) (harmed : ∀ e ∈ s.table.entries, e.scope = .loc → e.state = .armed)
    (h : s.keepsLocals t) : s.keepsLocals (leftNotice n t) := by
  have hpruned : s.keepsLocals (pruneRequired n t) := by
    refine keepsLocals_foldl (fun s e => pruneEntry_worksAt n e s) (fun e _ hloc => ?_) h
    rw [← Bool.not_eq_true, prunes_iff, hloc]
    rintro ⟨hshared, _⟩
    cases hshared
  refine keepsLocals_foldl (fun s e => dropHeld_worksAt e s) (fun e he hloc => ?_) hpruned
  rw [harmed e he hloc]
  rfl

theorem yieldNotices_keepsLocals (left : List Station) (harmed : ∀ e ∈ s.table.entries, e.scope = .loc → e.state = .armed)
    (h : s.keepsLocals t) : s.keepsLocals (yieldNotices left t) :=
  List.foldlRecOn left _ h fun _ h n _ => leftNotice_keepsLocals n harmed h

theorem discardShared_keepsLocals (h : s.keepsLocals t) : s.keepsLocals (discardShared t) :=
  keepsLocals_of_entries rfl
    (keepsLocals_foldl (fun s e => removeEntry_worksAt e.id s) (fun _ _ hloc => by rw [hloc]; rfl) h)

theorem yieldMove_keepsLocals (h : s.keepsLocals t) : s.keepsLocals (yieldMove t) := keepsLocals_of_entries rfl h

/-- The removal of entries one by one (R127). -/
theorem foldl_removeEntry_eq (es : List Entry) (s : State) :
    es.foldl (fun s e => removeEntry e.id s) s =
      { s with
        table.entries := s.table.entries.filter fun e => !es.any fun x => x.id == e.id
        engine.needs := s.engine.needs.filter fun n => !es.any fun x => n.source == .entry x.id } := by
  induction es generalizing s with
  | nil => simp
  | cons a rest ih =>
    rw [List.foldl_cons, ih]
    simp [removeEntry, withdrawNeed, dropEntry, List.filter_filter, Bool.and_comm, bne, BEq.comm (a := a.id)]

/-- The discard of a yield written out (R125). -/
theorem discardShared_eq (s : State) :
    let shared := s.table.entries.filter fun e => e.scope == .shared
    discardShared s =
      { s with
        table.entries := s.table.entries.filter fun e => !shared.any fun x => x.id == e.id
        engine.needs := s.engine.needs.filter fun n => !shared.any fun x => n.source == .entry x.id
        reports.records := s.reported (.mergeDropped shared.length) s.ctl.state } := by
  intro shared
  rw [discardShared, foldl_removeEntry_eq]
  rfl

/-- No SHARED entry is in the due list. -/
def State.onlyLocals (s : State) : Prop := ∀ e ∈ s.table.entries, e.scope = .loc

theorem discardShared_onlyLocals (s : State) : (discardShared s).onlyLocals := by
  rw [discardShared_eq]
  intro e he
  obtain ⟨hmem, hkept⟩ := List.mem_filter.1 he
  cases hscope : e.scope with
  | loc => rfl
  | shared =>
    have hgone : ((s.table.entries.filter fun e => e.scope == .shared).any fun x => x.id == e.id) = true :=
      List.any_eq_true.2 ⟨e, List.mem_filter.2 ⟨hmem, by simp [hscope]⟩, by simp⟩
    rw [hgone] at hkept
    cases hkept

/-- Among LOCAL entries a left notice has none to prune, and it adds none. -/
theorem leftNotice_onlyLocals (n : Station) (h : s.onlyLocals) : (leftNotice n s).onlyLocals := by
  have hnone : s.table.entries.filter s.prunes = [] := by
    refine List.filter_eq_nil_iff.2 fun e he => ?_
    rw [prunes_iff, h e he]
    rintro ⟨hshared, _⟩
    cases hshared
  have hpruned : pruneRequired n s = s := by rw [pruneRequired, hnone]; rfl
  rw [leftNotice, protocolLeft, hpruned]
  exact List.foldlRecOn (motive := State.onlyLocals) _ _ h fun t ht e _ x hx => ht x ((dropEntry_sublist e.id t.table.entries).mem hx)

theorem yieldNotices_onlyLocals (left : List Station) (h : s.onlyLocals) : (yieldNotices left s).onlyLocals :=
  List.foldlRecOn (motive := State.onlyLocals) left _ h fun _ h n _ => leftNotice_onlyLocals n h

/-- Whatever the order of its three parts, a yield leaves the LOCAL entries and no other (R87, R125). -/
theorem yieldParts_entries (order : YieldOrder) (left : List Station)
    (harmed : ∀ e ∈ s.table.entries, e.scope = .loc → e.state = .armed) (h : s.keepsLocals t) :
    s.keepsLocals (yieldParts order left t) ∧ (yieldParts order left t).onlyLocals := by
  have notices {u : State} (hu : s.keepsLocals u) := yieldNotices_keepsLocals left harmed hu
  have noticesOnly {u : State} (hu : u.onlyLocals) := yieldNotices_onlyLocals left hu
  have discard {u : State} (hu : s.keepsLocals u) := discardShared_keepsLocals hu
  have move {u : State} (hu : s.keepsLocals u) := yieldMove_keepsLocals hu
  have only := discardShared_onlyLocals
  cases order with
  | noticesDiscardMove => exact ⟨move (discard (notices h)), only (yieldNotices left t)⟩
  | noticesMoveDiscard => exact ⟨discard (move (notices h)), only _⟩
  | discardNoticesMove => exact ⟨move (notices (discard h)), noticesOnly (only t)⟩
  | discardMoveNotices =>
    have hmoved : (yieldMove (discardShared t)).onlyLocals := only t
    exact ⟨notices (move (discard h)), noticesOnly hmoved⟩
  | moveNoticesDiscard => exact ⟨discard (notices (move h)), only _⟩
  | moveDiscardNotices => exact ⟨notices (discard (move h)), noticesOnly (only _)⟩

/-! ### The yield -/

/-- The state of a yield in front of its three parts: the merge step requested and the member flags cleared (R87, R68). -/
def State.yielding (s : State) (k : Candidate) : State :=
  { s with
    base.pendingStep := some ⟨k.sample, .merge⟩
    base.slew := 0
    rounds.joinRun := 0
    peers := s.peers.map fun p => { p with member := false } }

/-- A station that takes part takes the merge step (R46). -/
theorem yieldTo_takesPart (h : s.ctl.state.takesPart = true) (k : Candidate) (o : CloseOrder) :
    yieldTo k o s = yieldParts o.yield ((peerOrder o).filter fun n => (s.peer n).member) (s.yielding k) := by
  have htaken : takesStep .merge s.ctl.state = true := h
  rw [yieldTo, requestStep, if_pos htaken]
  rfl

theorem yielding_peer (s : State) (k : Candidate) (n : Station) : (s.yielding k).peer n = { s.peer n with member := false } := by
  simp [State.peer, State.yielding]

/-- Without members, a yield clears no flag. -/
theorem yielding_of_noMember (k : Candidate) (h : ∀ n : Station, (s.peer n).member = false) :
    s.yielding k = { s with base.pendingStep := some ⟨k.sample, .merge⟩, base.slew := 0, rounds.joinRun := 0 } := by
  have hcleared (n : Station) : { s.peer n with member := false } = s.peer n := by rw [← h n]
  have hpeers : (s.peers.map fun p => { p with member := false }) = s.peers :=
    Vector.ext fun i hi => (Vector.getElem_map _ hi).trans (hcleared ⟨i, hi⟩)
  rw [State.yielding, hpeers]

/-- The parts of a yield without left notices, in either order of its two reports. -/
theorem yieldParts_nil (order : YieldOrder) (s : State) :
    yieldParts order [] s =
      if order ∈ [YieldOrder.noticesDiscardMove, .discardNoticesMove, .discardMoveNotices] then yieldMove (discardShared s)
      else discardShared (yieldMove s) := by
  cases order <;> rfl

/-- Settles O42: the selection (`selectCandidate_first`), what the three parts of a yield leave (`yieldParts_sameButEntries`,
`yieldParts_entries`), and the parts without a left notice (`yieldParts_nil`). -/
theorem mergeYieldsToTheLargerGroup : Obligations.MergeYieldsToTheLargerGroup := by
  refine ⟨⟨fun list => ⟨selectCandidate_none_iff, fun k hk => selectCandidate_first hk⟩, fun s k => yieldTarget_some_iff⟩,
    fun s k o hpart hsound honce => ?_, fun s k o hpart hmembers => ?_⟩
  · have harmed (e : Entry) (he : e ∈ s.table.entries) (hloc : e.scope = .loc) : e.state = .armed := by
      obtain ⟨⟨hlocal, _⟩, _⟩ := hsound e he
      obtain ⟨_, hstate, _⟩ := hlocal hloc
      exact hstate
    have hkept : s.keepsLocals (s.yielding k) := ⟨honce, fun e he _ => entry?_of_mem (s := s) honce he⟩
    intro t
    have ht : t = yieldParts o.yield _ (s.yielding k) := yieldTo_takesPart hpart k o
    obtain ⟨⟨_, hlocals⟩, honly⟩ := yieldParts_entries o.yield _ harmed hkept
    obtain ⟨_, _, _, _, hframe, _⟩ := yieldParts_sameButEntries o.yield _ (s.yielding k)
    rw [← ht] at hlocals honly hframe
    refine ⟨?_, ?_, ?_, ?_, fun n => ?_, honly, hlocals⟩
    · rw [hframe]
    · rw [hframe]; rfl
    · rw [hframe]; rfl
    · rw [hframe]; rfl
    · rw [hframe]; exact yielding_peer s k n
  · intro shared discardFirst report
    have hleft : ((peerOrder o).filter fun n => (s.peer n).member) = [] := List.filter_eq_nil_iff.2 fun n _ => by simp [hmembers n]
    rw [yieldTo_takesPart hpart, hleft, yieldParts_nil, yielding_of_noMember k hmembers]
    by_cases hfirst : discardFirst
    · rw [if_pos hfirst, if_pos hfirst, discardShared_eq]
      rfl
    · rw [if_neg hfirst, if_neg hfirst, discardShared_eq]
      rfl

end Sys2Proof.Machine
end

section
/-! PROOFS. The founding of the station's own time, the round start, join qualification and the holdover test (O38, O43). -/

namespace Sys2Proof.Machine

variable {s : State} {c : Int}

/-- A move of the station state, written out (R94): its report carries the new state. -/
theorem moveState_eq (new : StationState) (cause : MoveCause) (s : State) :
    moveState new cause s =
      { s with
        ctl.state := new
        reports.records := s.reported (.stateChanged s.ctl.state new cause) new } := rfl

/-! ### Founding and the round start -/

theorem listenTimeout_founds {start : Time} (hstate : s.ctl.state = .listen) (htimer : s.ctl.listenTimer = some start)
    (hwaited : 3 * s.cfg.roundLength ≤ (s.now - start).toNat) :
    listenTimeout s = resetRounds (moveState .synced .founded { s with ctl.listenTimer := none }) := by
  have hexpired : s.listenExpired = true := by
    simp only [State.listenExpired, htimer, hstate, decide_eq_true hwaited, beq_self_eq_true, Bool.and_self]
  exact if_pos hexpired

theorem roundStart_opens (hactive : s.rounds.active = true) (hnotice : s.noticeDue = none)
    (hround : s.now.toNat / s.cfg.roundLength ≠ s.rounds.round) :
    roundStart s =
      raiseNeed .sync .roundEngine
        { s with
          rounds.round := s.now.toNat / s.cfg.roundLength
          rounds.windowOpen := true
          rounds.syncSent := false } := by
  have hdue : s.roundStartDue = true := by simp [State.roundStartDue, roundOf, hactive, hnotice, hround]
  exact if_pos hdue

/-- Settles O38: the founding is a move and a reset of the rounds; a station that takes part keeps the SYNC need of the round. -/
theorem foundingAndRoundStart : Obligations.FoundingAndRoundStart := by
  refine ⟨fun s start hstate htimer hwaited => ?_, fun s hactive hnotice hpart hround => ?_⟩
  · rw [exec_listenTimeout, listenTimeout_founds hstate htimer hwaited, resetRounds_eq, moveState_eq, hstate]
    rfl
  · rw [exec_roundStart, roundStart_opens hactive hnotice hround]
    exact congrArg Host.Outcome.next (raiseNeed_taken (takesPart_keeps_needs (state := s.ctl.state) hpart .sync))

/-! ### Join qualification -/

theorem exceeds_false {limit : Nat} (h : c.natAbs ≤ limit) : exceeds c limit = false := decide_eq_false (Nat.not_lt.2 h)

theorem closeStage6_outside (hstate : s.ctl.state = .joining) (hc : s.cfg.syncTolerance < c.natAbs) :
    closeStage6 c s = { s with rounds.joinRun := 0 } := by
  have hexceeds : exceeds c s.cfg.syncTolerance = true := decide_eq_true hc
  rw [closeStage6, if_pos hstate, if_pos hexceeds]

/-- A close within the sync tolerance counts in JOINING, and the third in a row qualifies (R88). -/
theorem closeStage6_within (hstate : s.ctl.state = .joining) (hc : c.natAbs ≤ s.cfg.syncTolerance) :
    closeStage6 c s =
      if 2 ≤ s.rounds.joinRun then
        moveState .synced .qualified
          { s with
            rounds.joinRun := 0
            rounds.peered := s.rounds.peered || s.members != 0 }
      else { s with rounds.joinRun := s.rounds.joinRun + 1 } := by
  simp only [closeStage6, hstate, exceeds_false hc, Nat.reduceLeDiff, if_true, Bool.false_eq_true, if_false]

/-! ### The holdover test -/

theorem closeStage7_enters (hstate : s.ctl.state = .synced) (hpeered : s.rounds.peered = true) (hmembers : s.members = 0) :
    closeStage7 .synced s = moveState .holdover .holdoverEntered s := if_pos ⟨rfl, hstate, hpeered, hmembers⟩

theorem closeStage7_stays {before : StationState} (h : before ≠ .synced ∨ s.rounds.peered = false ∨ s.members ≠ 0) :
    closeStage7 before s = s := by
  refine if_neg fun ⟨hbefore, _, hpeered, hmembers⟩ => ?_
  rcases h with h | h | h
  · exact h hbefore
  · rw [h] at hpeered
    cases hpeered
  · exact h hmembers

/-- Settles O43, by the stages 6 and 7 of the close. -/
theorem qualificationAndHoldover : Obligations.QualificationAndHoldover := by
  refine fun s c => ⟨fun hstate => if_neg hstate,
    fun hstate => ⟨closeStage6_outside hstate, fun hc hrun => ?_, fun hc hrun => ?_⟩, fun hstate hpeered hmembers => ?_,
    fun h => closeStage7_stays (.inr h), fun before hbefore => closeStage7_stays (.inl hbefore)⟩
  · rw [closeStage6_within hstate hc, if_neg (Nat.not_le.2 hrun)]
  · rw [closeStage6_within hstate hc, if_pos hrun, moveState_eq, hstate]
    rfl
  · rw [closeStage7_enters hstate hpeered hmembers, moveState_eq, hstate]

end Sys2Proof.Machine
end

section
/-! PROOFS. The correction of a close (O40). -/

namespace Sys2Proof.Machine

variable {used rest : List Int} {low high : Int} {limit : Nat}

/-! ### Means -/

theorem natAbs_sum_le {values : List Int} (h : ∀ v ∈ values, v.natAbs ≤ limit) : values.sum.natAbs ≤ values.length * limit := by
  induction values with
  | nil => simp
  | cons v values ih =>
    obtain ⟨hv, hvalues⟩ := List.forall_mem_cons.1 h
    calc (v :: values).sum.natAbs
      _ ≤ v.natAbs + values.sum.natAbs := by rw [List.sum_cons]; exact Int.natAbs_add_le ..
      _ ≤ limit + values.length * limit := Nat.add_le_add hv (ih hvalues)
      _ = (v :: values).length * limit := by rw [List.length_cons, Nat.succ_mul, Nat.add_comm]

/-- A mean rounded toward zero is within the largest magnitude of its values. -/
theorem natAbs_mean_le {values : List Int} (h : ∀ v ∈ values, v.natAbs ≤ limit) :
    (values.sum.tdiv values.length).natAbs ≤ limit := by
  rw [Int.natAbs_tdiv]
  exact Nat.div_le_of_le_mul (natAbs_sum_le h)

/-! ### The values that are removed -/

/-- `low` is one smallest and `high` one largest of the own 0 ns and the used samples, and `rest` is what their removal leaves (R81). -/
def trimsTo (used : List Int) (low high : Int) (rest : List Int) : Prop :=
  (0 :: used).Perm (low :: high :: rest) ∧ low ≤ high ∧ ∀ v ∈ rest, low ≤ v ∧ v ≤ high

/-- Two values or more can be put in order, the first and the last of which are the ones to remove. -/
theorem exists_trimsTo (hused : used ≠ []) : ∃ low high rest, trimsTo used low high rest := by
  have hperm := List.mergeSort_perm (0 :: used) (· ≤ ·)
  have hsorted := List.pairwise_mergeSort' (· ≤ ·) (0 :: used)
  have hlength : 2 ≤ ((0 :: used).mergeSort (· ≤ ·)).length := by
    have := List.length_pos_of_ne_nil hused
    rw [hperm.length_eq, List.length_cons]
    omega
  generalize (0 :: used).mergeSort (· ≤ ·) = sorted at hperm hsorted hlength
  obtain _ | ⟨low, tail⟩ := sorted
  · simp at hlength
  · obtain rfl | ⟨rest, high, rfl⟩ := List.eq_nil_or_concat tail
    · simp at hlength
    · rw [List.concat_eq_append] at hperm hsorted
      obtain ⟨hlow, htail⟩ := List.pairwise_cons.1 hsorted
      obtain ⟨_, _, hhigh⟩ := List.pairwise_append.1 htail
      exact ⟨low, high, rest, hperm.symm.trans ((List.perm_append_singleton high rest).cons low), hlow high (by simp),
        fun v hv => ⟨hlow v (by simp [hv]), hhigh v hv high (by simp)⟩⟩

theorem bounds_of_trimsTo (h : trimsTo used low high rest) :
    low ∈ 0 :: used ∧ high ∈ 0 :: used ∧ ∀ v ∈ 0 :: used, low ≤ v ∧ v ≤ high := by
  obtain ⟨hperm, hle, hrest⟩ := h
  refine ⟨hperm.mem_iff.2 (by simp), hperm.mem_iff.2 (by simp), fun v hv => ?_⟩
  obtain rfl | rfl | hv := by simpa using hperm.mem_iff.1 hv
  · exact ⟨le_rfl, hle⟩
  · exact ⟨hle, le_rfl⟩
  · exact hrest v hv

theorem foldl_max_of_trimsTo (h : trimsTo used low high rest) : used.foldl max 0 = high := by
  obtain ⟨_, hhigh, hbounds⟩ := bounds_of_trimsTo h
  have hmax := List.max?_eq_some_iff.2 ⟨hhigh, fun v hv => (hbounds v hv).2⟩
  exact Option.some.inj (List.max?_cons'.symm.trans hmax)

theorem foldl_min_of_trimsTo (h : trimsTo used low high rest) : used.foldl min 0 = low := by
  obtain ⟨hlow, _, hbounds⟩ := bounds_of_trimsTo h
  have hmin := List.min?_eq_some_iff.2 ⟨hlow, fun v hv => (hbounds v hv).1⟩
  exact Option.some.inj (List.min?_cons'.symm.trans hmin)

/-! ### The correction -/

theorem correction_untrimmed (hused : used.length ≤ 2) : correction used = used.sum.tdiv (used.length + 1) := by
  rw [correction, if_pos (by omega), ← List.sum_eq_foldl]
  rfl

theorem correction_trimmed (hused : 3 ≤ used.length) (h : trimsTo used low high rest) :
    correction used = rest.sum.tdiv rest.length := by
  have hperm : (0 :: used).Perm (low :: high :: rest) := h.1
  have hsum : used.sum = low + (high + rest.sum) := by simpa using hperm.sum_eq
  have hlength : used.length + 1 = rest.length + 2 := by simpa using hperm.length_eq
  rw [correction, if_neg (by omega), ← List.sum_eq_foldl, foldl_max_of_trimsTo h, foldl_min_of_trimsTo h, hsum, hlength]
  congr 1
  · omega
  · omega

/-- In both cases the correction is a mean of values among the own 0 ns and the used samples. -/
theorem correction_natAbs_le (h : ∀ v ∈ used, v.natAbs ≤ limit) : (correction used).natAbs ≤ limit := by
  have hvalues : ∀ v ∈ 0 :: used, v.natAbs ≤ limit := List.forall_mem_cons.2 ⟨Nat.zero_le limit, h⟩
  by_cases hused : used.length ≤ 2
  · have hmean : correction used = (0 :: used).sum.tdiv (0 :: used).length := by simp [correction_untrimmed hused]
    rw [hmean]
    exact natAbs_mean_le hvalues
  · obtain ⟨low, high, rest, htrims⟩ := exists_trimsTo (used := used) (by rintro rfl; simp at hused)
    rw [correction_trimmed (by omega) htrims]
    exact natAbs_mean_le fun v hv => hvalues v (htrims.1.mem_iff.2 (by simp [hv]))

/-- Settles O40: the mean of all values up to three of them, and of the untrimmed ones from four on. -/
theorem correctionIsTheTrimmedMean : Obligations.CorrectionIsTheTrimmedMean :=
  ⟨fun _ => correction_untrimmed, fun _ _ _ _ hused hperm hle hrest => correction_trimmed hused ⟨hperm, hle, hrest⟩,
    fun _ _ => correction_natAbs_le⟩

end Sys2Proof.Machine
end

section
/-! PROOFS. The invariants at reset (O60), START (O9), STOP (O10) and LEAVE (O11). -/

namespace Sys2Proof.Machine

variable {s : State} {filler : List Byte}

/-! ### Reset -/

theorem reset_queuesBounded : State.reset.queuesBounded :=
  ⟨Nat.zero_le _, Nat.zero_le _, Nat.zero_le _, List.forall_mem_nil _, List.forall_mem_nil _⟩

theorem reset_pinsHeld : State.reset.pinsHeld := ⟨fun h => (Bool.false_ne_true h).elim, fun h => (Bool.false_ne_true h).elim⟩

theorem reset_countsBounded : State.reset.countsBounded :=
  ⟨Nat.zero_le _, Nat.zero_le _, Nat.zero_le _, Nat.zero_le _, Nat.zero_le _, fun _ h => by cases h⟩

/-- The reset state is a power-on with the straps of station 0, class A. -/
theorem reset_clockInRange : State.reset.clockInRange := powerOn_clock ⟨0, 0⟩ State.reset

theorem reset_dueListKept : State.reset.dueListKept := ⟨.nil, .nil, Nat.zero_le _, Nat.zero_le _⟩

theorem reset_entriesSound : State.reset.entriesSound := List.forall_mem_nil _

theorem reset_peersSound : State.reset.peersSound := peersSound_empty rfl rfl rfl

theorem reset_needsSound : State.reset.needsSound := ⟨.nil, List.forall_mem_nil _⟩

theorem reset_blocksFollow : State.reset.blocksFollow := by
  simp [State.blocksFollow, State.reset, Line.idleLine, State.peer]

/-- Settles O60, invariant by invariant. -/
theorem invariantsHoldAtReset : Obligations.InvariantsHoldAtReset :=
  ⟨reset_queuesBounded, reset_pinsHeld, reset_countsBounded, reset_clockInRange, reset_dueListKept, reset_entriesSound,
    reset_peersSound, reset_needsSound, reset_blocksFollow⟩

/-! ### START -/

/-- A whole START: its two refusals, and the start at the time that its argument bytes carry (R95). -/
theorem commandStart_eq {a : List Byte} (ha : a.length = 8) (h : s.holds 0x02 a filler) :
    commandStart s =
      if s.ctl.state ≠ .off then s.answered .badState []
      else if s.straps.speed = .invalid then s.answered .badStrap []
      else (startStation (BitVec.ofNat 64 (field 0 8 a)) s).answered .ok [] := takeCommand_holds h ha ownStart

/-- Settles O9: a whole START is judged by `commandStart_eq`, and its argument reads back as the time (`field_value`). -/
theorem startTakesTheStationToListen : Obligations.StartTakesTheStationToListen := by
  refine ⟨fun s t filler hoff hspeed h => ?_, fun s a filler ha h => ?_⟩
  · have htime : BitVec.ofNat 64 (field 0 8 (beBytes 8 t.toNat)) = t := field_value t rfl (by decide)
    rw [exec_start, commandStart_eq (beBytes_length 8 _) h, if_neg (not_not.2 hoff), if_neg hspeed, htime]
    simp only [startStation, moveState_eq, hoff]
    rfl
  · rw [exec_start, commandStart_eq ha h]
    exact ⟨fun hon => by rw [if_pos hon], fun hoff hspeed => by rw [if_neg (not_not.2 hoff), if_pos hspeed]⟩

/-! ### STOP -/

/-- A whole STOP: refused in OFF, else the entry to OFF (R105). -/
theorem commandStop_eq (h : s.holds 0x03 [] filler) :
    commandStop s = if s.ctl.state = .off then s.answered .badState [] else (goOff .hostStop s).answered .ok [] :=
  takeCommand_holds h rfl ownStop

/-- Settles O10: a whole STOP by `commandStop_eq`; the entry to OFF writes each block's values out. -/
theorem stopTakesTheStationOff : Obligations.StopTakesTheStationOff :=
  ⟨fun _ _ h => congrArg Host.Outcome.next (commandStop_eq h), fun _ _ => rfl⟩

/-! ### LEAVE -/

/-- A whole LEAVE: taken where the station takes part, else refused (R102). -/
theorem commandLeave_eq (h : s.holds 0x04 [] filler) :
    commandLeave s = if s.ctl.state.takesPart then (enterLeaving s).answered .ok [] else s.answered .badState [] :=
  takeCommand_holds h rfl ownLeave

theorem takesPart_iff_mem {st : StationState} : st.takesPart = true ↔ st ∈ [StationState.joining, .synced, .holdover] := by
  cases st <;> decide

/-- The entry to LEAVING: behind the move, the raised LEAVE is the one need (R102, R22). -/
theorem enterLeaving_eq (s : State) :
    enterLeaving s =
      { s with
        engine.needs := [⟨.leave, .controller, s.engine.nextAge⟩]
        engine.nextAge := s.engine.nextAge + 1
        base.slew := 0
        rounds.active := false
        rounds.windowOpen := false
        ctl.state := .leaving
        ctl.listenTimer := none
        ctl.leaveFailures := 0
        table.entries := []
        table.outputs := idleOutputs s.cfg
        capture.marks := []
        reports.records := s.reported (.stateChanged s.ctl.state .leaving .hostLeave) .leaving } :=
  raiseNeed_taken rfl

/-- Settles O11: a whole LEAVE is judged by `commandLeave_eq`, and a taken one acts by `enterLeaving_eq`. -/
theorem leaveTakesTheStationToLeaving : Obligations.LeaveTakesTheStationToLeaving := by
  intro s filler h
  rw [exec_leave, commandLeave_eq h]
  refine ⟨fun hpart => ?_, fun hpart => ?_⟩
  · rw [if_pos (takesPart_iff_mem.2 hpart), enterLeaving_eq]
    rfl
  · rw [if_neg (mt takesPart_iff_mem.1 hpart)]

end Sys2Proof.Machine
end

section
/-! PROOFS. The sequence that a draw gives, and the field checks on an action's entry (O12). -/

namespace Sys2Proof.Machine

variable {s : State} {a : ActionArgs} {id : ActionId} {scope : Scope} {role : ActionRole} {state : EntryState} {e : Entry}
  {output : Channel} {edge : ActionEdge} {mode : ReportMode}

/-! ### The draw -/

/-- `used.length + 1` values from the counter on are distinct, so `used` lacks one of them. -/
theorem exists_unused {used : List (BitVec 8)} (hroom : used.length < 256) (c : BitVec 8) :
    ∃ k ≤ used.length, c + BitVec.ofNat 8 k ∉ used := by
  by_contra! hall
  have hnodup : ((List.range (used.length + 1)).map fun k => c + BitVec.ofNat 8 k).Nodup := by
    refine List.nodup_range.map_on fun i hi j hj hij => ?_
    rw [List.mem_range] at hi hj
    have hvalue : i % 2 ^ 8 = j % 2 ^ 8 := by simpa using congrArg BitVec.toNat ((BitVec.add_right_inj c).1 hij)
    omega
  have hsubset : ((List.range (used.length + 1)).map fun k => c + BitVec.ofNat 8 k) ⊆ used := by
    intro v hv
    obtain ⟨k, hk, rfl⟩ := List.mem_map.1 hv
    exact hall k (Nat.le_of_lt_succ (List.mem_range.1 hk))
  have hlength := (hnodup.subperm hsubset).length_le
  rw [List.length_map, List.length_range] at hlength
  omega

/-- The draw stops at the first free value, and that one lies no further on than the number of values held (R110). -/
theorem nextSeq_first (hroom : s.ownSeqs.length < 256) :
    s.nextSeq ∉ s.ownSeqs
      ∧ ∃ k : Nat, k ≤ s.ownSeqs.length ∧ s.nextSeq = s.ctl.seq + BitVec.ofNat 8 k
        ∧ ∀ j < k, s.ctl.seq + BitVec.ofNat 8 j ∈ s.ownSeqs := by
  obtain ⟨m, hm, hfree⟩ := exists_unused hroom s.ctl.seq
  obtain ⟨hnext, k, _, hk, hbelow⟩ := freeSeq_first s.ownSeqs 256 s.ctl.seq ⟨m, by omega, hfree⟩
  have hle : k ≤ m := not_lt.1 fun hlt => hfree (hbelow m hlt)
  exact ⟨hnext, k, hle.trans hm, hk, hbelow⟩

/-! ### The field checks -/

theorem actionEdge?_eq_some_iff {n : Nat} {edge : ActionEdge} : actionEdge? n = some edge ↔ n = edge.code := by
  constructor
  · intro h
    unfold actionEdge? at h
    split at h <;> cases h <;> rfl
  · rintro rfl
    cases edge <;> rfl

theorem reportMode?_eq_some_iff {n : Nat} {mode : ReportMode} : reportMode? n = some mode ↔ n = mode.code := by
  constructor
  · intro h
    unfold reportMode? at h
    split at h <;> cases h <;> rfl
  · rintro rfl
    cases mode <;> rfl

theorem pulse_iff_code : edge = .pulse ↔ edge.code = 2 := by cases edge <;> decide

/-- The output, the edge and the report mode that the codes of an action name (12.1). -/
def ActionArgs.coded (a : ActionArgs) (output : Channel) (edge : ActionEdge) (mode : ReportMode) : Prop :=
  a.output = output.val ∧ a.edge = edge.code ∧ a.mode = mode.code

theorem exists_edge_of_code {n : Nat} (h : n ≤ 3) : ∃ edge : ActionEdge, n = edge.code := by
  interval_cases n
  exacts [⟨.rise, rfl⟩, ⟨.fall, rfl⟩, ⟨.pulse, rfl⟩, ⟨.toggle, rfl⟩]

theorem exists_mode_of_code {n : Nat} (h : n ≤ 1) : ∃ mode : ReportMode, n = mode.code := by
  interval_cases n
  exacts [⟨.each, rfl⟩, ⟨.atEnd, rfl⟩]

theorem exists_coded_of_pass (h : a.pass) : ∃ output edge mode, a.coded output edge mode := by
  obtain ⟨houtput, hedge, _, _, _, _, hmode⟩ := h
  obtain ⟨edge, hedge⟩ := exists_edge_of_code hedge
  obtain ⟨mode, hmode⟩ := exists_mode_of_code hmode
  exact ⟨⟨a.output, by omega⟩, edge, mode, rfl, hedge, hmode⟩

/-- Fields that name an output, an edge and a mode pass where none of the model's four refusals holds (R117). -/
theorem pass_iff_unrefused (h : a.coded output edge mode) :
    a.pass ↔
      ¬((edge = .pulse ∧ a.width = 0) ∨ (1 ≤ a.period.toNat ∧ a.period.toNat ≤ 9999)
        ∨ (edge = .pulse ∧ a.period ≠ 0 ∧ a.period.toNat ≤ a.width.toNat * 100) ∨ (a.period = 0 ∧ a.count ≠ 1)) := by
  obtain ⟨houtput, hedge, hmode⟩ := h
  have houtputs : output.val ≤ 3 := by omega
  have hedges : edge.code ≤ 3 := by cases edge <;> decide
  have hmodes : mode.code ≤ 1 := by cases mode <;> decide
  have hperiod : a.period = 0 ↔ a.period.toNat = 0 := by rw [← BitVec.toNat_inj]; rfl
  have hgap : (a.period.toNat = 0 ∨ 10000 ≤ a.period.toNat) ↔ ¬(1 ≤ a.period.toNat ∧ a.period.toNat ≤ 9999) := by omega
  simp only [ActionArgs.pass, houtput, hedge, hmode, houtputs, hedges, hmodes, ← pulse_iff_code, true_and, and_true, hperiod, hgap,
    not_or, not_and, not_le, ne_eq, not_not]

/-- The entry that an action's fields make (R117): none fired, no sets, no tries and no marks. -/
def ActionArgs.entry (a : ActionArgs) (output : Channel) (edge : ActionEdge) (mode : ReportMode) (id : ActionId) (scope : Scope)
    (role : ActionRole) (state : EntryState) : Entry where
  id := id
  scope := scope
  role := role
  state := state
  output := output
  edge := edge
  width := if a.edge = 2 then some a.width else none
  due := a.due
  period := a.period
  count := a.count
  fired := 0
  skipped := 0
  mode := mode
  required := none
  acked := none
  armedSet := none
  tries := none
  marks := none
  finalAwaited := false

theorem entry?_of_pass (hcoded : a.coded output edge mode) (h : a.pass) :
    a.entry? id scope role state = some (a.entry output edge mode id scope role state) := by
  have hchecks := (pass_iff_unrefused hcoded).1 h
  obtain ⟨houtput, hedge, hmode⟩ := hcoded
  have hchannel : (⟨a.output, houtput ▸ output.isLt⟩ : Channel) = output := Fin.ext houtput
  simp only [ActionArgs.entry?, actionEdge?_eq_some_iff.2 hedge, reportMode?_eq_some_iff.2 hmode]
  rw [dif_pos (houtput ▸ output.isLt), if_neg hchecks, hchannel]
  simp only [ActionArgs.entry, hedge, pulse_iff_code]

theorem pass_of_entry? (h : a.entry? id scope role state = some e) : a.pass := by
  unfold ActionArgs.entry? at h
  split at h
  case h_1 edge mode hedge hmode =>
    split at h
    case isTrue houtput =>
      split at h
      case isTrue => cases h
      case isFalse hchecks =>
        have hcoded : a.coded ⟨a.output, houtput⟩ edge mode :=
          ⟨rfl, actionEdge?_eq_some_iff.1 hedge, reportMode?_eq_some_iff.1 hmode⟩
        exact (pass_iff_unrefused hcoded).2 hchecks
    case isFalse => cases h
  case h_2 => cases h

/-- Settles O12: the draw by `nextSeq_first`; an entry is made exactly of fields that pass (`pass_of_entry?`, `entry?_of_pass`). -/
theorem newEntriesHaveFreeIdsAndCheckedFields : Obligations.NewEntriesHaveFreeIdsAndCheckedFields := by
  refine ⟨fun s => nextSeq_first, fun a id scope role state => ⟨⟨fun h => ?_, fun hpass => ?_⟩, fun e he => ?_⟩⟩
  · obtain ⟨e, he⟩ := Option.isSome_iff_exists.1 h
    exact pass_of_entry? he
  · obtain ⟨output, edge, mode, hcoded⟩ := exists_coded_of_pass hpass
    rw [entry?_of_pass hcoded hpass]
    rfl
  · have hpass := pass_of_entry? he
    obtain ⟨output, edge, mode, hcoded⟩ := exists_coded_of_pass hpass
    rw [entry?_of_pass hcoded hpass] at he
    obtain ⟨houtput, hedge, hmode⟩ := hcoded
    cases he
    exact ⟨rfl, rfl, rfl, rfl, houtput.symm, hedge.symm, hmode.symm, rfl, rfl, rfl, rfl, rfl, rfl⟩

end Sys2Proof.Machine
end

section
/-! PROOFS. Entry to FAULT (O22). -/

namespace Sys2Proof.Machine

variable {e : Entry}

/-! ### The entries that stay -/

theorem pointReached_eq (e : Entry) : e.pointReached = (e.marks == some ⟨.host, true⟩ || e.marks == some ⟨.tries, true⟩) := by
  unfold Entry.pointReached
  rcases e.marks with _ | ⟨_ | _, _ | _⟩ <;> rfl

/-- A committed cancel before its cancel point, which entry to FAULT returns to ARMED (R148). -/
def Entry.returns (e : Entry) : Bool := e.state == .cancelling && e.committed && !e.pointReached

/-- An entry that entry to FAULT leaves, as it leaves it (R148). -/
def Entry.keptByFault (e : Entry) : Entry :=
  { e with state := .armed, marks := if e.state = .armed then e.marks else none, finalAwaited := false }

/-- An ARMED entry and a cancel that returns stay, every other goes (R148). -/
theorem afterFault_eq (e : Entry) : e.afterFault = if e.state == .armed || e.returns then some e.keptByFault else none := by
  cases hstate : e.state with
  | held | pending | committing => simp [Entry.afterFault, Entry.returns, hstate]
  | armed => simp [Entry.afterFault, Entry.keptByFault, hstate]
  | cancelling => simp [Entry.afterFault, Entry.returns, Entry.keptByFault, Entry.rearmed, hstate]

theorem filterMap_afterFault (entries : List Entry) :
    entries.filterMap Entry.afterFault = (entries.filter fun e => e.state == .armed || e.returns).map Entry.keptByFault := by
  rw [← List.filterMap_eq_map, List.filterMap_filter]
  exact List.filterMap_congr fun e _ => afterFault_eq e

/-! ### The reports -/

theorem incompleteReports_eq (e : Entry) :
    e.incompleteReports = if e.armedSet ≠ none ∧ e.missing ≠ 0 then [.cancelIncomplete e.id e.missing] else [] := by
  simp only [Entry.incompleteReports, Bool.and_eq_true, Bool.not_eq_true', ← Bool.not_eq_true (Entry.covered _), committed_iff,
    covered_iff]

/-- The reports of a CANCELLING entry that entry to FAULT removes (R148), by its armed set, its marks and its missing set. -/
def Entry.removedReports (e : Entry) : List ReportKind :=
  if e.armedSet = none ∧ e.marks = some ⟨.host, false⟩ then [.actionCancelled e.id]
  else if e.armedSet ≠ none ∧ e.missing ≠ 0 then [.cancelIncomplete e.id e.missing]
  else []

theorem faultCancelReports_eq (hremoved : e.committed = true → e.pointReached = true) : e.faultCancelReports = e.removedReports := by
  rw [Entry.faultCancelReports, Entry.removedReports, incompleteReports_eq]
  cases hpoint : e.pointReached with
  | true =>
    have hmarks : e.marks ≠ some ⟨.host, false⟩ := fun h => by simp [pointReached_marks h] at hpoint
    simp [hmarks]
  | false =>
    have hset : e.armedSet = none := by
      by_contra h
      simp [hremoved (committed_iff.2 h)] at hpoint
    have hhost : e.byHost = true ↔ e.marks = some ⟨.host, false⟩ := by
      rw [byHost_iff, or_iff_left fun h => by simp [pointReached_marks h] at hpoint]
    simp [hset, hhost]

/-- The cancels that do not return are uncommitted or behind their cancel point. -/
theorem removedReports_flatMap (entries : List Entry) :
    (entries.filter fun e => e.state == .cancelling && !(e.committed && !e.pointReached)).flatMap Entry.faultCancelReports =
      (entries.filter fun e => e.state == .cancelling && !e.returns).flatMap Entry.removedReports := by
  have hfilter (e : Entry) :
      (e.state == .cancelling && !(e.committed && !e.pointReached)) = (e.state == .cancelling && !e.returns) := by
    unfold Entry.returns
    cases e.state == .cancelling <;> rfl
  simp only [hfilter]
  refine List.flatMap_congr fun e he => faultCancelReports_eq fun hset => ?_
  have hremoved := (List.mem_filter.1 he).2
  rw [← hfilter] at hremoved
  simpa [hset] using (Bool.and_eq_true_iff.1 hremoved).2

/-- The Action Protocol's reports at entry to FAULT, group by group (R148). -/
theorem faultReports_eq (needs : List Need) (entries : List Entry) :
    faultReports needs entries =
      (entries.filter fun e => e.state == .held).map (fun e => .heldDropped e.id)
        ++ (entries.filter fun e => e.state == .pending || e.state == .committing).map (fun e => .proposalFailed e.id e.missing .fault)
        ++ (entries.filter (inFollowUp needs)).flatMap Entry.followUpReports
        ++ (entries.filter Entry.returns).map (fun e => .cancelLate e.id .fault)
        ++ (entries.filter fun e => e.state == .cancelling && !e.returns).flatMap Entry.removedReports :=
  congrArg (_ ++ ·) (removedReports_flatMap entries)

/-- The report queue behind an entry to FAULT: the Action Protocol's reports and STATE_CHANGED in either order, each with the station state
of its moment (R107, R160). -/
def State.faultRecords (s : State) (move : MoveCause) (reports : List ReportKind) : FaultOrder → List Report
  | .stateFirst =>
    reports.foldl (fun q k => joinQueue 32 Report.lose ⟨k, s.now, .fault, 0⟩ q)
      (s.reported (.stateChanged s.ctl.state .fault move) .fault)
  | .protocolFirst =>
    joinQueue 32 Report.lose ⟨.stateChanged s.ctl.state .fault move, s.now, .fault, 0⟩
      (reports.foldl (fun q k => joinQueue 32 Report.lose ⟨k, s.now, s.ctl.state, 0⟩ q) s.reports.records)

theorem enterFault_reports (cause : FaultCause) (move : MoveCause) (o : FaultOrder) (s : State) :
    enterFault cause move o s =
      { intoFault cause s with
        reports.records := s.faultRecords move (faultReports s.engine.needs s.table.entries) o } := by
  rw [enterFault_eq]
  cases o with
  | stateFirst => exact queueReports_eq ..
  | protocolFirst =>
    exact congrArg (fun t => queueReport (.stateChanged s.ctl.state .fault move) (intoFault cause t)) (queueReports_eq ..)

/-- Settles O22: the blocks by `enterFault_reports`, the entries by `filterMap_afterFault`, the reports by `faultReports_eq`. -/
theorem entryToFaultPurgesTheProtocol : Obligations.EntryToFaultPurgesTheProtocol := by
  intro cause move o s reached returns missing unarmed followed reports
  have hreturns : Entry.returns = returns := by
    funext e
    rw [Entry.returns, pointReached_eq]
    rfl
  have hreports : faultReports s.engine.needs s.table.entries = reports := by
    rw [faultReports_eq, hreturns]
    rfl
  refine ⟨_, enterFault_reports cause move o s, rfl, rfl, rfl, rfl, rfl, rfl, ?_, rfl, ?_, rfl, rfl, rfl, rfl⟩
  · rw [← hreturns]
    exact congrArg (fun entries => { s.table with entries }) (filterMap_afterFault s.table.entries)
  · exact congrArg (s.faultRecords move · o) hreports

end Sys2Proof.Machine
end

section
/-! PROOFS. What an event makes of the due list: a relation between the states before and behind it, and the changes of one entry that keep
the entry sound. -/

namespace Sys2Proof.Machine

variable {s t u : State} {e x : Entry} {own : Station} {entries : List Entry}

/-! ### The due list in its order -/

/-- The entries stand in the order of the due list, and no id stands twice (R112, R114). -/
def InDueOrder (entries : List Entry) : Prop :=
  entries.Pairwise (fun a b => a.before b = true) ∧ (entries.map Entry.id).Nodup

theorem inDueOrder_sublist {rest : List Entry} (hsub : rest.Sublist entries) (h : InDueOrder entries) : InDueOrder rest :=
  ⟨h.1.sublist hsub, h.2.sublist (hsub.map Entry.id)⟩

theorem inDueOrder_drop (id : ActionId) (h : InDueOrder entries) : InDueOrder (dropEntry id entries) :=
  inDueOrder_sublist (dropEntry_sublist id entries) h

theorem inDueOrder_put (e : Entry) (h : InDueOrder entries) : InDueOrder (insertEntry e (dropEntry e.id entries)) := by
  obtain ⟨hordered, honce⟩ := inDueOrder_drop e.id h
  have hnew : ∀ x ∈ dropEntry e.id entries, x.id ≠ e.id := fun x hx => (mem_dropEntry.1 hx).2
  refine ⟨insertEntry_ordered hordered hnew, ((insertEntry_perm e _).map Entry.id).nodup_iff.2 ?_⟩
  refine List.nodup_cons.2 ⟨fun hmem => ?_, honce⟩
  obtain ⟨x, hx, hid⟩ := List.mem_map.1 hmem
  exact hnew x hx hid

/-! ### The relation -/

/-- An entry meets what `State.entriesSound` says of it. -/
def Entry.sound (own : Station) (e : Entry) : Prop := e.shaped own ∧ e.counted

/-- An event may put `e` where `x` stood: under the same id, LOCAL only where `x` was, and sound where `x` was. -/
structure Entry.MayBecome (own : Station) (x e : Entry) : Prop where
  id : e.id = x.id
  scope : e.scope = .loc → x.scope = .loc
  sound : x.sound own → e.sound own

/-- `e` is what an entry of the table may become. -/
def State.Allows (s : State) (e : Entry) : Prop := ∃ x ∈ s.table.entries, x.MayBecome s.own e

/-- The event that leads from `s` to `t` adds no id to the table: it removes entries and puts what they may become. -/
structure State.Revises (s t : State) : Prop where
  own : t.own = s.own
  order : InDueOrder s.table.entries → InDueOrder t.table.entries
  entries : ∀ e ∈ t.table.entries, s.Allows e

/-- What `State.dueListKept` and `State.entriesSound` read of a state. -/
def State.dueTable (s : State) : List Entry × Station := (s.table.entries, s.own)

theorem dueTable_of_fields (hentries : t.table.entries = s.table.entries) (hstraps : t.straps = s.straps) : t.dueTable = s.dueTable := by
  rw [State.dueTable, State.dueTable, hentries, State.own, State.own, hstraps]

theorem mayBecome_refl (own : Station) (e : Entry) : e.MayBecome own e := ⟨rfl, id, id⟩

theorem Entry.MayBecome.trans {y : Entry} (h : x.MayBecome own y) (h' : y.MayBecome own e) : x.MayBecome own e :=
  ⟨h'.id.trans h.id, h.scope ∘ h'.scope, h'.sound ∘ h.sound⟩

theorem allows_of_mem (h : e ∈ s.table.entries) : s.Allows e := ⟨e, h, mayBecome_refl s.own e⟩

theorem State.Allows.turn (h : s.Allows x) (h' : x.MayBecome s.own e) : s.Allows e := by
  obtain ⟨y, hy, hyx⟩ := h
  exact ⟨y, hy, hyx.trans h'⟩

theorem revises_refl (s : State) : s.Revises s := ⟨rfl, id, fun _ => allows_of_mem⟩

theorem State.Revises.trans (h : s.Revises t) (h' : t.Revises u) : s.Revises u := by
  refine ⟨h'.own.trans h.own, h'.order ∘ h.order, fun e he => ?_⟩
  obtain ⟨x, hx, hxe⟩ := h'.entries e he
  exact (h.entries x hx).turn (h.own ▸ hxe)

/-- A change of anything but the table's entries and the own number. -/
theorem State.Revises.same (h : s.Revises t) (hu : u.dueTable = t.dueTable) : s.Revises u := by
  obtain ⟨hentries, hown⟩ := Prod.mk.inj hu
  exact ⟨hown.trans h.own, fun ho => hentries ▸ h.order ho, fun e he => h.entries e (hentries ▸ he)⟩

theorem revises_of_dueTable (h : t.dueTable = s.dueTable) : s.Revises t := (revises_refl s).same h

/-- Entries leave the table, the others as they are. -/
theorem State.Revises.filtered (h : s.Revises t) (q : Entry → Bool) (hu : u.dueTable = (t.table.entries.filter q, t.own)) :
    s.Revises u := by
  obtain ⟨hentries, hown⟩ := Prod.mk.inj hu
  exact ⟨hown.trans h.own, fun ho => hentries ▸ inDueOrder_sublist List.filter_sublist (h.order ho),
    fun e he => h.entries e (List.mem_of_mem_filter (hentries ▸ he))⟩

theorem State.Revises.remove (h : s.Revises t) (id : ActionId) : s.Revises (removeEntry id t) := h.filtered _ rfl

theorem State.Revises.put (h : s.Revises t) (he : s.Allows e) : s.Revises (putEntry e t) where
  own := h.own
  order ho := inDueOrder_put e (h.order ho)
  entries y hy := by
    rcases mem_insertEntry.1 hy with rfl | hy
    · exact he
    · exact h.entries y (mem_dropEntry.1 hy).1

/-- The table is emptied. -/
theorem revises_of_empty (hown : t.own = s.own) (hentries : t.table.entries = []) : s.Revises t := by
  refine ⟨hown, fun _ => ?_, ?_⟩ <;> rw [hentries]
  · exact ⟨.nil, .nil⟩
  · exact List.forall_mem_nil _

/-- An event repeated over a list. -/
theorem State.Revises.foldl {α : Type} {f : State → α → State} {list : List α}
    (hf : ∀ t, s.Revises t → ∀ a ∈ list, s.Revises (f t a)) (h : s.Revises t) : s.Revises (list.foldl f t) :=
  List.foldlRecOn list f h hf

/-! ### What the relation keeps -/

/-- An event keeps the due list, and the entries sound. -/
structure State.KeepsTable (s t : State) : Prop where
  due : s.dueListKept → t.dueListKept
  sound : s.entriesSound → t.entriesSound

theorem keepsTable_refl (s : State) : s.KeepsTable s := ⟨id, id⟩

theorem State.KeepsTable.trans (h : s.KeepsTable t) (h' : t.KeepsTable u) : s.KeepsTable u := ⟨h'.due ∘ h.due, h'.sound ∘ h.sound⟩

/-- Entries of distinct ids that each stand in the other list too are no more than those. -/
theorem length_le_of_ids {list : List Entry} (honce : (list.map Entry.id).Nodup) (hids : ∀ e ∈ list, ∃ x ∈ entries, x.id = e.id) :
    list.length ≤ entries.length := by
  have hsubset : list.map Entry.id ⊆ entries.map Entry.id := by
    intro id hid
    obtain ⟨e, he, rfl⟩ := List.mem_map.1 hid
    obtain ⟨x, hx, hxe⟩ := hids e he
    exact List.mem_map.2 ⟨x, hx, hxe⟩
  simpa using (honce.subperm hsubset).length_le

/-- The LOCAL entries of the table (R113). -/
def State.locals (s : State) : List Entry := s.table.entries.filter fun e => e.scope == .loc

theorem mem_locals : e ∈ s.locals ↔ e ∈ s.table.entries ∧ e.scope = .loc := by simp [State.locals]

theorem State.Revises.dueListKept (h : s.Revises t) (hs : s.dueListKept) : t.dueListKept := by
  obtain ⟨hordered, honce, hplaces, hlocals⟩ := hs
  obtain ⟨hordered', honce'⟩ := h.order ⟨hordered, honce⟩
  refine ⟨hordered', honce', le_trans (length_le_of_ids honce' fun e he => ?_) hplaces,
    le_trans (length_le_of_ids (list := t.locals) (entries := s.locals) ?_ fun e he => ?_) hlocals⟩
  · obtain ⟨x, hx, hxe⟩ := h.entries e he
    exact ⟨x, hx, hxe.id.symm⟩
  · exact honce'.sublist (List.filter_sublist.map Entry.id)
  · obtain ⟨he, hscope⟩ := mem_locals.1 he
    obtain ⟨x, hx, hxe⟩ := h.entries e he
    exact ⟨x, mem_locals.2 ⟨hx, hxe.scope hscope⟩, hxe.id.symm⟩

theorem State.Revises.entriesSound (h : s.Revises t) (hs : s.entriesSound) : t.entriesSound := by
  intro e he
  obtain ⟨x, hx, hxe⟩ := h.entries e he
  rw [h.own]
  exact hxe.sound (hs x hx)

theorem State.Revises.keepsTable (h : s.Revises t) : s.KeepsTable t := ⟨h.dueListKept, h.entriesSound⟩

theorem keepsTable_of_dueTable (h : t.dueTable = s.dueTable) : s.KeepsTable t := (revises_of_dueTable h).keepsTable

theorem State.KeepsTable.same (h : s.KeepsTable t) (hu : u.dueTable = t.dueTable) : s.KeepsTable u := h.trans (keepsTable_of_dueTable hu)

theorem keepsTable_of_empty (h : t.table.entries = []) : s.KeepsTable t where
  due _ := by simp [State.dueListKept, State.localCount, h]
  sound _ := by simp [State.entriesSound, h]

/-- A sound entry is put: one under an id that the table has, or into a free place (R113). -/
theorem putEntry_keepsTable (hsound : e.sound s.own) (hplace : (∃ x ∈ s.table.entries, x.id = e.id) ∨ s.table.entries.length < 32)
    (hlocal : e.scope = .loc → s.localCount < 8) : s.KeepsTable (putEntry e s) where
  due := by
    intro ⟨hordered, honce, hplaces, hlocals⟩
    obtain ⟨hordered', honce'⟩ := inDueOrder_put e ⟨hordered, honce⟩
    have hdropped := dropEntry_sublist e.id s.table.entries
    refine ⟨hordered', honce', ?_, ?_⟩
    · rw [putEntry_entries, insertEntry_length]
      rcases hplace with ⟨x, hx, hid⟩ | hroom
      · have hless : (dropEntry e.id s.table.entries).length < s.table.entries.length :=
          List.length_filter_lt_length_iff_exists.2 ⟨x, hx, by simp [hid]⟩
        omega
      · exact Nat.succ_le_of_lt (lt_of_le_of_lt hdropped.length_le hroom)
    · have hrest : ((dropEntry e.id s.table.entries).filter fun e => e.scope == .loc).length ≤ s.localCount :=
        (hdropped.filter _).length_le
      rw [State.localCount, putEntry_entries, ((insertEntry_perm e _).filter _).length_eq, List.filter_cons]
      split
      case isTrue hloc => exact Nat.succ_le_of_lt (lt_of_le_of_lt hrest (hlocal (by simpa using hloc)))
      case isFalse => exact hrest.trans hlocals
  sound hs x hx := by
    rcases mem_insertEntry.1 hx with rfl | hx
    · exact hsound
    · exact hs x (mem_dropEntry.1 hx).1

/-! ### The soundness of an own SHARED entry -/

/-- What `Entry.shaped` says of an own SHARED entry (7.1, 8.1). -/
structure Entry.OwnShaped (own : Station) (e : Entry) : Prop where
  owner : e.id.owner = own
  unheld : e.state ≠ .held
  armed : e.state = .armed → e.armedSet.isSome = true
  proposed : e.state = .pending ∨ e.state = .committing → e.armedSet = none
  required : e.required.isSome = true
  acked : e.acked.isSome = true
  tries : e.tries.isSome = true
  within : e.acks &&& ~~~e.req = 0
  marks : e.marks.isSome = true ↔ e.state = .cancelling
  uncommitted : e.marks.map CancelMarks.reason = some .tries → e.armedSet = none
  width : e.width.isSome = true ↔ e.edge = .pulse

theorem shaped_iff_ownShaped (hscope : e.scope = .shared) (hrole : e.role = .owner) : e.shaped own ↔ e.OwnShaped own := by
  constructor
  · rintro ⟨_, howner, _, harmed, hproposed, hrequired, hacked, htries, hwithin, hmarks, huncommitted, hwidth⟩
    have hown : e.scope = .shared ∧ e.role = .owner := ⟨hscope, hrole⟩
    exact ⟨(howner hrole).1, (howner hrole).2, harmed hscope, fun h => hproposed (h.imp_right .inl), hrequired.2 hown, hacked.2 hown,
      htries.2 hown, hwithin, hmarks, huncommitted, hwidth⟩
  · rintro ⟨howner, hunheld, harmed, hproposed, hrequired, hacked, htries, hwithin, hmarks, huncommitted, hwidth⟩
    have hown : e.scope = .shared ∧ e.role = .owner := ⟨hscope, hrole⟩
    refine ⟨by simp [hscope], fun _ => ⟨howner, hunheld⟩, by simp [hrole], fun _ => harmed, ?_, iff_of_true hrequired hown,
      iff_of_true hacked hown, iff_of_true htries hown, hwithin, hmarks, huncommitted, hwidth⟩
    rintro (h | h | h)
    · exact hproposed (.inl h)
    · exact hproposed (.inr h)
    · exact absurd h hunheld

/-- An entry in PENDING, COMMITTING or CANCELLING is an own SHARED one (7.1). -/
theorem ownShared_of_state (hstate : e.state = .pending ∨ e.state = .committing ∨ e.state = .cancelling) (h : e.shaped own) :
    e.scope = .shared ∧ e.role = .owner := by
  obtain ⟨hloc, _, hmember, _⟩ := h
  constructor
  · cases hscope : e.scope with
    | shared => rfl
    | loc => simp [(hloc hscope).2.1] at hstate
  · cases hrole : e.role with
    | owner => rfl
    | member =>
      rcases (hmember hrole).2 with h | h <;> simp [h] at hstate

/-- A change of an entry that is an own SHARED one before, where it is shaped, and stays one: all but its state, its sets, its tries and its
marks stays. -/
theorem mayBecome_of_ownShaped {state : EntryState} {required acked armedSet : Option StationSet} {tries : Option Nat}
    {marks : Option CancelMarks} {finalAwaited : Bool} (hown : x.shaped own → x.scope = .shared ∧ x.role = .owner)
    (h : x.OwnShaped own →
      { x with state, required, acked, armedSet, tries, marks, finalAwaited : Entry }.OwnShaped own) :
    x.MayBecome own { x with state, required, acked, armedSet, tries, marks, finalAwaited } := by
  refine ⟨rfl, id, fun ⟨hshaped, hcounted⟩ => ⟨?_, hcounted⟩⟩
  obtain ⟨hscope, hrole⟩ := hown hshaped
  have hchanged := h ((shaped_iff_ownShaped hscope hrole).1 hshaped)
  exact (shaped_iff_ownShaped (e := { x with state, required, acked, armedSet, tries, marks, finalAwaited }) hscope hrole).2 hchanged

theorem ownShared_iff : e.ownShared = true ↔ e.scope = .shared ∧ e.role = .owner := by simp [Entry.ownShared]

end Sys2Proof.Machine
end

section
/-! PROOFS. What each change of the Action Table and the Action Protocol makes of its entry: it stays shaped and counted. -/

namespace Sys2Proof.Machine

variable {e : Entry} {own : Station} {a r : StationSet} {now : Time}

/-! ### Sets -/

/-- A set lies within another bit by bit. -/
theorem within_iff_bits : a &&& ~~~r = 0 ↔ ∀ i, a.getLsbD i = true → r.getLsbD i = true := by
  rw [BitVec.eq_of_getLsbD_eq_iff]
  refine forall_congr' fun i => ?_
  by_cases hi : i < 16
  · simp [hi]
  · simp [BitVec.getLsbD_of_ge a i (by omega), hi]

/-- Acks out of a set join acks within it. -/
theorem within_union (k : StationSet) (h : a &&& ~~~r = 0) : (a ||| (k &&& r)) &&& ~~~r = 0 := by
  rw [within_iff_bits] at h ⊢
  intro i hi
  simp only [BitVec.getLsbD_or, BitVec.getLsbD_and, Bool.or_eq_true, Bool.and_eq_true] at hi
  exact hi.elim (h i) And.right

/-- A station leaves both sets. -/
theorem within_less (n : StationSet) (h : a &&& ~~~r = 0) : setLess a n &&& ~~~setLess r n = 0 := by
  rw [within_iff_bits] at h ⊢
  intro i hi
  simp only [setLess, BitVec.getLsbD_and, Bool.and_eq_true] at hi ⊢
  exact ⟨h i hi.1, hi.2⟩

/-! ### Owner entries -/

theorem withTry_mayBecome (acks : StationSet) (hown : e.shaped own → e.scope = .shared ∧ e.role = .owner) :
    e.MayBecome own (e.withTry acks) :=
  mayBecome_of_ownShaped hown fun h => { h with acked := rfl, tries := rfl, within := within_union acks h.within }

theorem without_mayBecome (n : Station) (hown : e.ownShared = true) : e.MayBecome own (e.without n) :=
  mayBecome_of_ownShaped (fun _ => ownShared_iff.1 hown) fun h =>
    { h with required := rfl, acked := rfl, within := within_less _ h.within }

/-- An uncommitted proposal, one that a third try has made CANCELLING too, becomes COMMITTING (R132, R133, R149). -/
theorem committing_mayBecome (h : e.state = .pending ∨ e.state = .cancelling ∧ e.marks = some ⟨.tries, false⟩) :
    e.MayBecome own { e with state := .committing, tries := some 0, acked := some 0, marks := none } :=
  mayBecome_of_ownShaped (ownShared_of_state (h.imp_right fun hc => .inr hc.1)) fun hs =>
    { hs with
      unheld := by simp
      armed := by simp
      proposed := fun _ => h.elim (fun hp => hs.proposed (.inl hp)) fun hc => hs.uncommitted (by simp [hc.2])
      acked := rfl
      tries := rfl
      within := by simp [Entry.acks]
      marks := by simp
      uncommitted := by simp }

/-- A proposal becomes CANCELLING, uncommitted, for the host or for its tries (R132, R143). -/
theorem cancelling_mayBecome (reason : CancelReason) (h : e.state = .pending ∨ e.state = .committing) :
    e.MayBecome own { e with state := .cancelling, tries := some 0, marks := some ⟨reason, false⟩ } :=
  mayBecome_of_ownShaped (ownShared_of_state (h.imp_right .inl)) fun hs =>
    { hs with
      unheld := by simp
      armed := by simp
      proposed := by simp
      tries := rfl
      marks := by simp
      uncommitted := fun _ => hs.proposed h }

/-- The commit point of a COMMITTING entry (R134). -/
theorem commitPoint_mayBecome (h : e.state = .committing) : e.MayBecome own { e with state := .armed, armedSet := some e.req } :=
  mayBecome_of_ownShaped (ownShared_of_state (.inr (.inl h))) fun hs =>
    have hmarks : e.marks = none := by simpa [h] using hs.marks
    { hs with
      unheld := by simp
      armed := fun _ => rfl
      proposed := by simp
      marks := by simp [hmarks]
      uncommitted := by simp [hmarks] }

theorem byHost_reason (h : e.byHost = true) : e.marks.map CancelMarks.reason ≠ some .tries := by
  intro hr
  simp [Entry.byHost, hr] at h

/-- The commit point of an uncommitted HOST cancel (R134). -/
theorem commitPointInCancel_mayBecome (members : StationSet) (h : e.state = .cancelling) (hhost : e.byHost = true) :
    e.MayBecome own { e with armedSet := some e.req, required := some (e.req &&& members), acked := some 0, tries := some 0 } :=
  mayBecome_of_ownShaped (ownShared_of_state (.inr (.inr h))) fun hs =>
    { hs with
      armed := fun _ => rfl
      proposed := by simp [h]
      required := rfl
      acked := rfl
      tries := rfl
      within := by simp [Entry.acks]
      uncommitted := fun hr => absurd hr (byHost_reason hhost) }

/-- The cancel point is reached (R145). -/
theorem cancelPoint_mayBecome (h : e.state = .cancelling) :
    e.MayBecome own { e with marks := e.marks.map fun m => { m with pointReached := true } } :=
  mayBecome_of_ownShaped (ownShared_of_state (.inr (.inr h))) fun hs =>
    { hs with
      marks := by simpa using hs.marks
      uncommitted := fun hr => hs.uncommitted (by simpa [Function.comp_def] using hr) }

/-- A committed cancel returns to ARMED (R146, R148). -/
theorem rearmed_mayBecome (h : e.state = .cancelling) (hset : e.committed = true) : e.MayBecome own e.rearmed :=
  mayBecome_of_ownShaped (ownShared_of_state (.inr (.inr h))) fun hs =>
    { hs with
      unheld := by simp
      armed := fun _ => hset
      proposed := by simp
      marks := by simp
      uncommitted := by simp }

/-- An own ARMED entry becomes a committed cancel (R144). -/
theorem toCancel_mayBecome (members : StationSet) (hown : e.shaped own → e.scope = .shared ∧ e.role = .owner) :
    e.MayBecome own (e.toCancel members) :=
  mayBecome_of_ownShaped hown fun hs =>
    { hs with
      unheld := by simp
      armed := by simp
      proposed := by simp
      required := rfl
      acked := rfl
      tries := rfl
      within := by simp [Entry.acks]
      marks := by simp
      uncommitted := by simp }

/-! ### Any entry -/

/-- The mark of a last awaited outcome stands outside of the entry's shape. -/
theorem finalAwaited_mayBecome (final : Bool) (e : Entry) (own : Station) : e.MayBecome own { e with finalAwaited := final } :=
  ⟨rfl, id, id⟩

/-- A HELD copy is armed by its COMMIT (R138). -/
theorem heldArmed_mayBecome (set : StationSet) (h : e.state = .held) :
    e.MayBecome own { e with state := .armed, armedSet := some set } := by
  refine ⟨rfl, id, fun ⟨hshaped, hcounted⟩ => ⟨?_, hcounted⟩⟩
  obtain ⟨hloc, howner, hmember, _, _, hrequired, hacked, htries, hwithin, hmarks, _, hwidth⟩ := hshaped
  have hunmarked : e.marks = none := by simpa [h] using hmarks
  exact ⟨fun hl => (nomatch h.symm.trans (hloc hl).2.1), fun hr => absurd h (howner hr).2, fun hr => ⟨(hmember hr).1, .inr rfl⟩,
    fun _ _ => rfl, by simp, hrequired, hacked, htries, hwithin, by simp [hunmarked], by simp [hunmarked], hwidth⟩

/-- A firing that does not end a counted entry leaves occurrences of its count (R116, R122). -/
theorem plan_within (late : Bool) (h : (e.plan late now).ends = false) (hcount : e.count ≠ 0) :
    e.fired + 1 + e.skipped + (e.plan late now).skip < e.count.toNat := by
  cases late with
  | false =>
    simp only [Entry.plan, Entry.planOnTime] at h ⊢
    have hless : e.count ≠ 0 → e.fired + 1 + e.skipped < e.count.toNat := by simpa using h
    exact hless hcount
  | true =>
    have hpassed : 1 ≤ e.passed now := by
      unfold Entry.passed
      split
      · exact le_rfl
      · exact Nat.le_add_left ..
    simp only [Entry.plan, Entry.planLate, if_neg hcount, if_true] at h ⊢
    split
    case isTrue hless => simp only; omega
    case isFalse hless => simp [hless] at h

theorem afterFiring_mayBecome (late : Bool) (h : (e.plan late now).ends = false) : e.MayBecome own (e.afterFiring late now) := by
  refine ⟨rfl, id, fun ⟨hshaped, _⟩ => ⟨hshaped, Nat.min_le_left .., Nat.min_le_left .., fun hcount => ?_⟩⟩
  have hwithin := plan_within late h hcount
  have hfired : (e.afterFiring late now).fired ≤ e.fired + 1 := Nat.min_le_right ..
  have hskipped : (e.afterFiring late now).skipped ≤ e.skipped + (e.plan late now).skip := Nat.min_le_right ..
  show _ < e.count.toNat
  omega

end Sys2Proof.Machine
end

section
/-! PROOFS. The Action Table and the Action Protocol as revisions of the due list. -/

namespace Sys2Proof.Machine

variable {s t : State} {e : Entry}

/-! ### Needs, reports and cuts -/

theorem queueReports_dueTable (ks : List ReportKind) (s : State) : (queueReports ks s).dueTable = s.dueTable := by
  rw [queueReports_eq]
  rfl

theorem raiseNeed_dueTable (kind : FrameKind) (source : NeedSource) (s : State) : (raiseNeed kind source s).dueTable = s.dueTable := by
  obtain ⟨needs, age, he⟩ := raiseNeed_frame kind source s
  rw [he]
  rfl

theorem ownerCut_dueTable (id : ActionId) (kinds : List FrameKind) (s : State) : (ownerCut id kinds s).dueTable = s.dueTable := by
  unfold ownerCut
  split
  · split
    · split <;> rfl
    · rfl
  · rfl

/-- An entry is stored and raises a need. -/
theorem State.Revises.putRaise (h : s.Revises t) (he : s.Allows e) (kind : FrameKind) (x : Entry) :
    s.Revises (raiseFor kind x (putEntry e t)) := (h.put he).same (raiseNeed_dueTable ..)

/-- An entry is removed, with reports. -/
theorem State.Revises.removeReports (h : s.Revises t) (id : ActionId) (ks : List ReportKind) :
    s.Revises (queueReports ks (removeEntry id t)) := (h.remove id).same (queueReports_dueTable ..)

/-! ### Firing -/

theorem fire_revises (late : Bool) (h : s.Revises t) (he : s.Allows e) : s.Revises (fire late e t) := by
  have hreported : s.Revises (fireReport late e (markFired e (fireOutput late e t))) := by
    unfold fireReport
    split <;> exact h.same rfl
  unfold fire fireEntry
  split
  case isTrue => exact (hreported.remove e.id).same rfl
  case isFalse hends => exact hreported.put (he.turn (afterFiring_mayBecome late (by simpa using hends)))

theorem actionDue_revises (s : State) : s.Revises (actionDue s) := by
  rcases actionDue_cases s with ⟨_, he⟩ | ⟨e, hnext, he⟩ <;> rw [he]
  · exact revises_refl s
  · refine fire_revises _ (revises_refl s) (allows_of_mem ?_)
    unfold State.nextFiring at hnext
    split at hnext
    · cases hnext
    · exact List.mem_of_find?_eq_some hnext

theorem pulseEnd_dueTable (c : Channel) (s : State) : (pulseEnd c s).dueTable = s.dueTable := by
  rcases pulseEnd_cases c s with he | ⟨_, he⟩ <;> rw [he]
  rfl

theorem fireAllLate_revises (s : State) : s.Revises (fireAllLate s) :=
  State.Revises.foldl (fun _ h _ he => fire_revises true h (allows_of_mem (List.mem_of_mem_filter he))) (revises_refl s)

/-! ### Owner phases -/

theorem becomeCommitting_revises (h : s.Revises t) (he : s.Allows e)
    (hstate : e.state = .pending ∨ e.state = .cancelling ∧ e.marks = some ⟨.tries, false⟩) : s.Revises (becomeCommitting e t) :=
  h.putRaise (he.turn (committing_mayBecome hstate)) .commit e

theorem proposeCompleted_revises (acks : StationSet) (he : s.Allows e) (hstate : e.state = .pending) :
    s.Revises (proposeCompleted acks e s) := by
  have hmarked : s.Revises (markProposed e.id s) := revises_of_dueTable rfl
  have htry : s.Allows (e.withTry acks) := he.turn (withTry_mayBecome acks (ownShared_of_state (.inl hstate)))
  unfold proposeCompleted proposeOutcome
  extract_lets e'
  split
  · exact becomeCommitting_revises hmarked htry (.inl hstate)
  · split
    · exact hmarked.putRaise htry .propose e'
    · exact (hmarked.put (htry.turn (cancelling_mayBecome .tries (.inl hstate)))).same (raiseNeed_dueTable ..)

theorem endFollowUp_revises (h : s.Revises t) (he : s.Allows e) : s.Revises (endFollowUp e t) :=
  (h.put (he.turn (finalAwaited_mayBecome false e _))).same (queueReports_dueTable ..)

theorem commitCompleted_revises (acks : StationSet) (he : s.Allows e) (hown : e.ownShared = true) :
    s.Revises (commitCompleted acks e s) := by
  have htry (k : StationSet) : s.Allows (e.withTry k) := he.turn (withTry_mayBecome k fun _ => ownShared_iff.1 hown)
  rw [commitCompleted_eq]
  split
  · exact (revises_refl s).putRaise (htry _) ..
  · exact endFollowUp_revises (revises_refl s) (htry _)

theorem endCancel_revises (h : s.Revises t) (e : Entry) : s.Revises (endCancel e t) := h.removeReports ..

theorem cancelCompleted_revises (acks : StationSet) (he : s.Allows e) (hstate : e.state = .cancelling) :
    s.Revises (cancelCompleted acks e s) := by
  rw [cancelCompleted_eq]
  split
  · exact (revises_refl s).putRaise (he.turn (withTry_mayBecome acks (ownShared_of_state (.inr (.inr hstate))))) ..
  · exact endCancel_revises (revises_refl s) _

theorem cancelPoint_revises (he : s.Allows e) (hstate : e.state = .cancelling) : s.Revises (cancelPoint e s) := by
  unfold cancelPoint
  split
  · exact revises_refl s
  · exact ((revises_refl s).put (he.turn (cancelPoint_mayBecome hstate))).same (queueReports_dueTable ..)

theorem entryCheckComplete_revises (kind : FrameKind) (id : ActionId) (s : State) : s.Revises (entryCheckComplete kind id s) := by
  unfold entryCheckComplete
  split
  · exact revises_refl s
  · rename_i e hfound
    have he : s.Allows e := allows_of_mem (entry?_mem hfound)
    split
    · exact (revises_refl s).put (he.turn (commitPoint_mayBecome ‹_›))
    · split
      case isTrue hcancel =>
        simp only [Bool.and_eq_true] at hcancel
        exact (revises_refl s).put (he.turn (commitPointInCancel_mayBecome _ ‹_› hcancel.2))
      case isFalse => exact revises_refl s
    · exact cancelPoint_revises he ‹_›
    · exact revises_refl s

theorem entryCompleted_revises (kind : FrameKind) (id : ActionId) (acks : StationSet) (held : Bool) (s : State) :
    s.Revises (entryCompleted kind id acks held s) := by
  unfold entryCompleted
  split
  · exact revises_refl s
  · rename_i e hfound
    have he : s.Allows e := allows_of_mem (entry?_mem hfound)
    split
    · exact proposeCompleted_revises acks he ‹_›
    · split
      case isTrue hheld => exact commitCompleted_revises acks he (Bool.and_eq_true_iff.1 hheld).2
      case isFalse => exact revises_refl s
    · exact cancelCompleted_revises acks he ‹_›
    · exact revises_refl s

theorem entryFailed_revises (kind : FrameKind) (id : ActionId) (held : Bool) (s : State) : s.Revises (entryFailed kind id held s) := by
  unfold entryFailed
  split
  · exact revises_refl s
  · rename_i e hfound
    have he : s.Allows e := allows_of_mem (entry?_mem hfound)
    split
    · split
      · exact endFollowUp_revises (revises_refl s) he
      · exact revises_refl s
    · split
      · exact endCancel_revises (revises_refl s) e
      · exact revises_refl s
    · exact revises_refl s

/-! ### Deadlines -/

theorem cancelDeadline_revises (h : s.Revises t) (he : s.Allows e) (hstate : e.state = .cancelling) : s.Revises (cancelDeadline e t) := by
  unfold cancelDeadline
  extract_lets u
  have hu : s.Revises u := h.same (ownerCut_dueTable ..)
  split
  · split
    · exact hu.put (he.turn (finalAwaited_mayBecome true e _))
    · exact endCancel_revises hu e
  · split
    · exact (hu.put (he.turn (rearmed_mayBecome hstate ‹_›))).same rfl
    · exact hu.removeReports ..

theorem answerDeadline_revises (h : s.Revises t) (he : s.Allows e) : s.Revises (answerDeadline e t) := by
  have hproposal : s.Revises (proposalDeadline e t) := ((h.same (ownerCut_dueTable ..)).remove e.id).same rfl
  unfold answerDeadline
  split
  · exact hproposal
  · exact hproposal
  · exact (h.remove e.id).same rfl
  · exact cancelDeadline_revises h he ‹_›
  · exact h

theorem deadlineEvent_revises (id : ActionId) (s : State) : s.Revises (deadlineEvent id s) := by
  rcases deadlineEvent_cases id s with he | ⟨e, hfound, _, he⟩ <;> rw [he]
  · exact revises_refl s
  · exact answerDeadline_revises (revises_refl s) (allows_of_mem (entry?_mem hfound))

theorem followUpDeadline_revises (id : ActionId) (s : State) : s.Revises (followUpDeadline id s) := by
  rcases followUpDeadline_cases id s with he | ⟨e, hfound, _, _, _, he⟩ <;> rw [he]
  · exact revises_refl s
  · have hallows : s.Allows e := allows_of_mem (entry?_mem hfound)
    split
    · exact (revises_refl s).put (hallows.turn (finalAwaited_mayBecome true e _))
    · exact endFollowUp_revises (revises_refl s) hallows

theorem answerPassedDeadlines_revises (s : State) : s.Revises (answerPassedDeadlines s) :=
  State.Revises.foldl (fun _ h _ he => answerDeadline_revises h (allows_of_mem (List.mem_of_mem_filter he))) (revises_refl s)

/-! ### Left notices and the merge yield -/

theorem pruneEntry_revises (n : Station) (h : s.Revises t) (he : s.Allows e) (hown : e.ownShared = true) :
    s.Revises (pruneEntry n e t) := by
  have hwithout : s.Allows (e.without n) := he.turn (without_mayBecome n hown)
  rcases pruneEntry_cases n e t with ⟨hcommits, _, hp⟩ | ⟨_, hp⟩ <;> rw [hp]
  · exact becomeCommitting_revises h hwithout ((commitsByNotice_iff.1 hcommits).imp_left And.left)
  · exact h.put hwithout

theorem dropHeld_revises (es : List Entry) (h : s.Revises t) : s.Revises (dropHeld es t) :=
  State.Revises.foldl (fun _ h e _ => (h.remove e.id).same rfl) h

/-- A left notice prunes own entries and drops the copies of the station that left (R133, R141). -/
theorem leftNotice_revises (n : Station) (s : State) : s.Revises (leftNotice n s) := by
  refine dropHeld_revises _ (State.Revises.foldl (fun t h e he => ?_) (revises_refl s))
  obtain ⟨hmem, hprunes⟩ := List.mem_filter.1 he
  exact pruneEntry_revises n h (allows_of_mem hmem) (Bool.and_eq_true_iff.1 hprunes).1

theorem discardShared_revises (s : State) : s.Revises (discardShared s) :=
  (State.Revises.foldl (fun _ h e _ => h.remove e.id) (revises_refl s)).same rfl

/-- Entry to FAULT keeps the ARMED entries, and returns committed cancels to ARMED (R148). -/
theorem faultEntries_revises (s : State) : s.Revises (faultEntries s) where
  own := rfl
  order := fun ⟨hordered, honce⟩ => by
    rw [faultEntries_entries, filterMap_afterFault]
    refine ⟨List.pairwise_map.2 (hordered.filter _), ?_⟩
    rw [List.map_map]
    exact honce.sublist (List.filter_sublist.map Entry.id)
  entries e he := by
    obtain ⟨x, hx, hxe⟩ := List.mem_filterMap.1 he
    refine (allows_of_mem hx).turn ?_
    unfold Entry.afterFault at hxe
    split at hxe
    · cases hxe
    · cases hxe
    · cases hxe
    · cases hxe
      exact finalAwaited_mayBecome false x _
    · split at hxe
      case isTrue hreturns =>
        cases hxe
        exact rearmed_mayBecome ‹_› (Bool.and_eq_true_iff.1 hreturns).1
      case isFalse => cases hxe

/-! ### The member side -/

theorem memberCommit_revises (own sender : Station) (payload : List Byte) (s : State) :
    s.Revises (memberCommit own sender payload s).1 := by
  unfold memberCommit
  extract_lets id set
  split
  · exact revises_refl s
  · rename_i e hfound
    split
    · split
      · exact (revises_refl s).put ((allows_of_mem (entry?_mem hfound)).turn (heldArmed_mayBecome set ‹_›))
      · exact ((revises_refl s).remove id).same rfl
    all_goals exact revises_refl s

end Sys2Proof.Machine
end

section
/-! PROOFS. New entries: a taken SCHEDULE, a taken PROPOSE and a stored copy put a sound entry into a free place. -/

namespace Sys2Proof.Machine

variable {s : State} {a : ActionArgs} {id : ActionId} {scope : Scope} {role : ActionRole} {state : EntryState} {e : Entry} {own : Station}

/-! ### The entry that checked fields make -/

theorem entry?_eq_entry (h : a.entry? id scope role state = some e) :
    ∃ output edge mode, a.coded output edge mode ∧ e = a.entry output edge mode id scope role state := by
  have hpass := pass_of_entry? h
  obtain ⟨output, edge, mode, hcoded⟩ := exists_coded_of_pass hpass
  rw [entry?_of_pass hcoded hpass] at h
  exact ⟨output, edge, mode, hcoded, (Option.some.inj h).symm⟩

theorem entry?_keeps_id (h : a.entry? id scope role state = some e) : e.id = id := by
  obtain ⟨_, _, _, _, rfl⟩ := entry?_eq_entry h
  rfl

/-- An entry that has not fired lies below its count. -/
theorem counted_of_unfired (hfired : e.fired = 0) (hskipped : e.skipped = 0) : e.counted := by
  refine ⟨by omega, by omega, fun hcount => ?_⟩
  have hpos : e.count.toNat ≠ 0 := fun h => hcount (BitVec.eq_of_toNat_eq h)
  omega

theorem entry_width {output : Channel} {edge : ActionEdge} {mode : ReportMode} (h : a.coded output edge mode) :
    (a.entry output edge mode id scope role state).width.isSome = true ↔ edge = .pulse := by
  rw [pulse_iff_code, ← h.2.1, ActionArgs.entry]
  split <;> simp_all

/-- The LOCAL entry of a SCHEDULE (R117). -/
theorem scheduled_sound (hown : id.owner = own) (h : a.entry? id .loc .owner .armed = some e) : e.sound own := by
  obtain ⟨output, edge, mode, hcoded, rfl⟩ := entry?_eq_entry h
  have hwidth := entry_width (id := id) (scope := .loc) (role := .owner) (state := .armed) hcoded
  refine ⟨?_, counted_of_unfired rfl rfl⟩
  simp_all [Entry.shaped, ActionArgs.entry]

/-- The PENDING entry of a PROPOSE, with its sets and tries (R130). -/
theorem proposed_sound (members : StationSet) (hown : id.owner = own) (h : a.entry? id .shared .owner .pending = some e) :
    { e with required := some members, acked := some 0, tries := some 0 : Entry }.sound own := by
  obtain ⟨output, edge, mode, hcoded, rfl⟩ := entry?_eq_entry h
  have hwidth := entry_width (id := id) (scope := .shared) (role := .owner) (state := .pending) hcoded
  refine ⟨?_, counted_of_unfired rfl rfl⟩
  simp_all [Entry.shaped, ActionArgs.entry]

/-- The HELD copy of another station's proposal (R137). -/
theorem copied_sound (hother : id.owner ≠ own) (h : a.entry? id .shared .member .held = some e) : e.sound own := by
  obtain ⟨output, edge, mode, hcoded, rfl⟩ := entry?_eq_entry h
  have hwidth := entry_width (id := id) (scope := .shared) (role := .member) (state := .held) hcoded
  refine ⟨?_, counted_of_unfired rfl rfl⟩
  simp_all [Entry.shaped, ActionArgs.entry]

theorem entry?_keeps_scope (h : a.entry? id scope role state = some e) : e.scope = scope := by
  obtain ⟨_, _, _, _, rfl⟩ := entry?_eq_entry h
  rfl

/-! ### The three ways into the table -/

theorem ownSchedule_keepsTable (args : List Byte) (s : State) : s.KeepsTable (ownSchedule args s) := by
  have hreply (st : Status) : s.KeepsTable (reply st [] s) := keepsTable_of_dueTable rfl
  unfold ownSchedule
  split
  · exact hreply _
  · split
    · exact hreply _
    · split
      · exact hreply _
      · split
        · exact hreply _
        · split
          · exact hreply _
          · exact (putEntry_keepsTable (scheduled_sound rfl ‹_›) (.inr (not_le.1 ‹_›)) fun _ => not_le.1 ‹_›).same rfl

theorem ownPropose_keepsTable (args : List Byte) (s : State) : s.KeepsTable (ownPropose args s) := by
  have hreply (st : Status) : s.KeepsTable (reply st [] s) := keepsTable_of_dueTable rfl
  unfold ownPropose
  split
  · exact hreply _
  · split
    · exact hreply _
    · rename_i e he
      split
      · exact hreply _
      · split
        · exact hreply _
        · have hscope : e.scope = .shared := entry?_keeps_scope he
          have hput := putEntry_keepsTable (proposed_sound s.members rfl he) (.inr (not_le.1 ‹_›))
            fun hloc => by simp [hscope] at hloc
          exact hput.same (raiseNeed_dueTable .propose (.entry e.id) _)

theorem memberPropose_keepsTable {sender : Station} (payload : List Byte) (hother : sender ≠ s.own) :
    s.KeepsTable (memberPropose sender payload s).1 := by
  unfold memberPropose
  extract_lets id
  split
  · exact keepsTable_refl s
  · rename_i e he
    have hstore (hplace : (∃ x ∈ s.table.entries, x.id = e.id) ∨ s.table.entries.length < 32) : s.KeepsTable (storeCopy e s) := by
      have hlocal : e.scope = .loc → s.localCount < 8 := fun hloc => by simp [entry?_keeps_scope he] at hloc
      rcases storeCopy_cases e s with ⟨_, hs⟩ | ⟨_, hs⟩ <;> rw [hs]
      · exact putEntry_keepsTable (copied_sound hother he) hplace hlocal
      · exact (putEntry_keepsTable (copied_sound hother he) hplace hlocal).same rfl
    split
    · split
      · rename_i x hx
        have hfound : ∃ x ∈ s.table.entries, x.id = e.id := ⟨x, entry?_mem hx, (entry?_id hx).trans (entry?_keeps_id he).symm⟩
        split
        · exact keepsTable_of_dueTable rfl
        · split
          · exact hstore (.inl hfound)
          · exact keepsTable_refl s
      · split
        · exact hstore (.inr ‹_›)
        · exact keepsTable_refl s
    · exact keepsTable_refl s

end Sys2Proof.Machine
end

section
/-! PROOFS. The rows and operations that leave the due list and the own number as they are. -/

namespace Sys2Proof.Machine

variable {s : State}

/-! ### Frames begin -/

theorem latchFrameStart_dueTable (s : State) : (latchFrameStart s).dueTable = s.dueTable := by
  unfold latchFrameStart
  split <;> rfl

theorem access_dueTable (s : State) : (access s).dueTable = s.dueTable := by
  have hdrive (t : State) : (driveNow t).dueTable = t.dueTable := by
    unfold driveNow
    split
    · split <;> rfl
    · rfl
  rcases access_cases s with he | ⟨need, _, _, he⟩ <;> rw [he]
  exact (latchFrameStart_dueTable _).trans (hdrive { s with line := s.line.beginCell s.period })

theorem frameStart_dueTable (s : State) : (frameStart s).dueTable = s.dueTable := by
  have hlatch := latchFrameStart_dueTable { s with line := s.line.beginCell s.period }
  unfold frameStart
  split
  · unfold takeFrameStart
    split
    · exact hlatch
    · exact hlatch
    · exact hlatch
    all_goals split <;> exact hlatch
  · rfl

/-! ### The line -/

theorem lineQuiet_dueTable (s : State) : (lineQuiet s).dueTable = s.dueTable := by
  unfold lineQuiet
  split <;> rfl

theorem arbitrationLost_dueTable (s : State) : (arbitrationLost s).dueTable = s.dueTable := by
  unfold arbitrationLost
  split <;> rfl

theorem receivedFrameEnd_dueTable (s : State) : (receivedFrameEnd s).dueTable = s.dueTable := by
  unfold receivedFrameEnd
  split <;> rfl

theorem lengthAbove24_dueTable (s : State) : (lengthAbove24 s).dueTable = s.dueTable := by
  unfold lengthAbove24
  split <;> rfl

/-! ### Captures and marks -/

theorem joinMarks_dueTable (m : Mark) (s : State) : (joinMarks m s).dueTable = s.dueTable := by
  unfold joinMarks
  extract_lets t
  split
  · exact raiseNeed_dueTable ..
  · rfl

theorem captureEdge_dueTable (s : State) : (captureEdge s).dueTable = s.dueTable := by
  rcases captureEdge_cases s with he | ⟨i, e, _, he⟩ <;> rw [he]
  split
  · unfold recordEdge
    extract_lets st placed t
    split
    · exact joinMarks_dueTable ..
    · rfl
  · rfl

theorem memberMark_dueTable (sender : Station) (payload : List Byte) (s : State) :
    (memberMark sender payload s).1.dueTable = s.dueTable := by
  unfold memberMark
  split <;> rfl

theorem markCompleted_dueTable (s : State) : (markCompleted s).dueTable = s.dueTable := by
  unfold markCompleted
  extract_lets t
  split
  · rfl
  · exact raiseNeed_dueTable ..

/-! ### The station state, the rounds and the close -/

theorem joinedNotice_dueTable (s : State) : (joinedNotice s).dueTable = s.dueTable := by
  unfold joinedNotice
  split <;> rfl

theorem listenTimeout_dueTable (s : State) : (listenTimeout s).dueTable = s.dueTable := by
  unfold listenTimeout
  split <;> rfl

theorem requestStep_dueTable (st : TimeStep) (s : State) : (requestStep st s).dueTable = s.dueTable := by
  unfold requestStep
  split <;> rfl

theorem syncHeard_dueTable (n : Station) (c : SyncContent) (offset : Int) (s : State) :
    (syncHeard n c offset s).dueTable = s.dueTable := by
  have hadopt (t : State) : (adopt offset t).dueTable = t.dueTable := requestStep_dueTable ⟨offset, .adopt⟩ t
  unfold syncHeard
  split
  · rfl
  · exact hadopt _
  · exact hadopt _

theorem takeSample_dueTable (n : Station) (c : SyncContent) (offset : Int) (s : State) :
    (takeSample n c offset s).dueTable = s.dueTable := by
  unfold takeSample
  extract_lets p
  split <;> rfl

theorem roundStart_dueTable (s : State) : (roundStart s).dueTable = s.dueTable := by
  rcases roundStart_cases s with he | ⟨_, he⟩ <;> rw [he]
  exact (raiseNeed_dueTable ..).trans (dueTable_of_fields rfl rfl)

theorem roundsNotice_dueTable (s : State) : (roundsNotice s).dueTable = s.dueTable := by
  unfold roundsNotice
  split <;> rfl

theorem closeStage1_dueTable (s : State) : (closeStage1 s).dueTable = s.dueTable := by
  unfold closeStage1
  extract_lets t
  split <;> rfl

theorem closeStage3_dueTable (c : Int) (n : Nat) (s : State) : (closeStage3 c n s).dueTable = s.dueTable := by
  have hslew (q : Int) : (requestSlew q s).1.dueTable = s.dueTable := by
    unfold requestSlew
    split <;> rfl
  have htrim (v : Int) (t : State) : (requestTrim v t).1.dueTable = t.dueTable := by
    unfold requestTrim
    split <;> rfl
  unfold closeStage3
  extract_lets q a b
  have hb : b.1.dueTable = s.dueTable := by
    unfold b
    split
    · exact (htrim ..).trans (hslew q)
    · exact hslew q
  split <;> exact hb

theorem closeStage6_dueTable (c : Int) (s : State) : (closeStage6 c s).dueTable = s.dueTable := by
  unfold closeStage6
  split
  · split
    · rfl
    · split <;> rfl
  · rfl

theorem closeStage7_dueTable (before : StationState) (s : State) : (closeStage7 before s).dueTable = s.dueTable := by
  unfold closeStage7
  split <;> rfl

/-! ### The commands of the host -/

theorem badCommand_dueTable (s : State) : (badCommand s).dueTable = s.dueTable := by
  unfold badCommand
  split
  · split <;> rfl
  · rfl

theorem ownConfigure_dueTable (a : List Byte) (s : State) : (ownConfigure a s).dueTable = s.dueTable := by
  unfold ownConfigure
  split
  · split
    · split <;> rfl
    · rfl
  · rfl

theorem ownReadPeer_dueTable (a : List Byte) (s : State) : (ownReadPeer a s).dueTable = s.dueTable := by
  unfold ownReadPeer
  split <;> rfl

theorem ownReadAction_dueTable (a : List Byte) (s : State) : (ownReadAction a s).dueTable = s.dueTable := by
  unfold ownReadAction
  split
  · split <;> rfl
  · rfl

theorem ownTakeReport_dueTable (a : List Byte) (s : State) : (ownTakeReport a s).dueTable = s.dueTable := by
  unfold ownTakeReport
  split <;> rfl

theorem ownTakeCapture_dueTable (a : List Byte) (s : State) : (ownTakeCapture a s).dueTable = s.dueTable := by
  unfold ownTakeCapture
  split <;> rfl

/-! ### The readings of a period -/

theorem readInputs_dueTable (pins : Pins) (s : State) : (readInputs pins s).dueTable = s.dueTable := by
  obtain ⟨_, _, _, _, _, _, _, _, he⟩ := readInputs_eq pins s
  rw [he]
  rfl

end Sys2Proof.Machine
end

section
/-! PROOFS. Every row revises the due list or puts a sound entry into a free place: the due list (O56) and the
entries (O57) behind each step. -/

namespace Sys2Proof.Machine

variable {s t : State} {n : Station}

/-! ### Entry to FAULT -/

theorem enterFault_revises (cause : FaultCause) (move : MoveCause) (o : FaultOrder) (s : State) :
    s.Revises (enterFault cause move o s) := by
  rw [enterFault_reports]
  exact (faultEntries_revises s).same rfl

/-! ### The Peer Table -/

theorem setMember_revises (n : Station) (member : Bool) (h : s.Revises t) : s.Revises (setMember n member t) := by
  unfold setMember
  extract_lets p u
  have hu : s.Revises u := h.same rfl
  split
  · exact hu.same (joinedNotice_dueTable _)
  · split
    · exact hu.trans (leftNotice_revises n u)
    · exact h

theorem syncReceived_revises (n : Station) (c : SyncContent) (offset : Int) (s : State) : s.Revises (syncReceived n c offset s) :=
  setMember_revises n _ (revises_of_dueTable (takeSample_dueTable n c offset (setPeer n ((s.peer n).heard n c) s)))

theorem dropPeer_revises (n : Station) (cause : DropCause) (h : s.Revises t) : s.Revises (dropPeer n cause t) := by
  unfold dropPeer
  extract_lets u
  have hu : s.Revises u := h.same rfl
  split
  · exact hu.trans (leftNotice_revises n u)
  · exact hu

theorem leaveReceived_revises (n : Station) (s : State) : s.Revises (leaveReceived n s) := by
  unfold leaveReceived
  split
  · exact dropPeer_revises n .leave (revises_of_dueTable rfl)
  · exact revises_refl s

/-- The judgement of one entry changes the due list by its left notice alone. -/
theorem judgePeer_revises (c : Int) (n : Station) (h : s.Revises t) : s.Revises (judgePeer c n t) := by
  have hpeer {u : State} (hu : s.Revises u) (p : Peer) : s.Revises (setPeer n p u) := hu.same rfl
  have hmiss : s.Revises (countMiss n t) := by
    unfold countMiss
    extract_lets p
    split
    · exact dropPeer_revises n .misses h
    · exact hpeer h _
  have hmember (r : Int) {u : State} (hu : s.Revises u) : s.Revises (judgeMember n r u) := by
    unfold judgeMember
    extract_lets p
    split
    · split
      · refine State.Revises.trans ?_ (leftNotice_revises n _)
        exact hu.same rfl
      · exact hpeer hu _
    · exact hpeer hu _
  have hsuspect (r : Int) {u : State} (hu : s.Revises u) : s.Revises (judgeSuspect n r u) := by
    unfold judgeSuspect
    extract_lets p member v
    have hv : s.Revises v := hu.same rfl
    split
    · exact hpeer hu _
    · split
      · split
        · exact hv.same (joinedNotice_dueTable v)
        · exact hv
      · exact hpeer hu _
  unfold judgePeer
  extract_lets p u
  have hu : s.Revises u := hpeer h _
  split
  · exact h
  · exact hmiss
  · split
    · exact hmember _ hu
    · split
      · exact hsuspect _ hu
      · exact hu

/-! ### The rounds -/

theorem yieldParts_revises (order : YieldOrder) (left : List Station) (h : s.Revises t) : s.Revises (yieldParts order left t) := by
  have notices {u : State} (h : s.Revises u) : s.Revises (yieldNotices left u) :=
    State.Revises.foldl (fun u h n _ => h.trans (leftNotice_revises n u)) h
  have discard {u : State} (h : s.Revises u) : s.Revises (discardShared u) := h.trans (discardShared_revises u)
  have move {u : State} (h : s.Revises u) : s.Revises (yieldMove u) := h.same rfl
  cases order with
  | noticesDiscardMove => exact move (discard (notices h))
  | noticesMoveDiscard => exact discard (move (notices h))
  | discardNoticesMove => exact move (notices (discard h))
  | discardMoveNotices => exact notices (move (discard h))
  | moveNoticesDiscard => exact discard (notices (move h))
  | moveDiscardNotices => exact notices (discard (move h))

theorem roundClose_revises (o : CloseOrder) (s : State) : s.Revises (roundClose o s) := by
  rcases roundClose_cases o s with he | ⟨_, he⟩ <;> rw [he]
  · exact revises_refl s
  · unfold closeRound
    extract_lets used c s1 r s2 s3 s4
    have h3 : s.Revises s3 := (revises_of_dueTable (closeStage1_dueTable s)).same (closeStage3_dueTable c _ s2)
    have h4 : s.Revises s4 := State.Revises.foldl (fun _ h n _ => judgePeer_revises c n h) h3
    have hclosed : s.Revises (closeStages567 c o s.ctl.state s4) := by
      unfold closeStages567
      split
      · exact yieldParts_revises _ _ (h4.same (requestStep_dueTable _ s4))
      · exact h4.same ((closeStage7_dueTable ..).trans (closeStage6_dueTable c s4))
    exact hclosed.same rfl

theorem tableNotice_revises (st : TimeStep) (h : s.Revises t) : s.Revises (tableNotice st t) := by
  unfold tableNotice
  extract_lets u
  have hu : s.Revises u := h.same rfl
  split
  · exact (hu.trans (answerPassedDeadlines_revises u)).trans (fireAllLate_revises _)
  · exact hu

theorem stepNotice_revises (steppedFirst : Bool) (s : State) : s.Revises (stepNotice steppedFirst s) := by
  unfold stepNotice
  split
  · rename_i st _
    extract_lets u stepped
    have hu : s.Revises u := revises_of_dueTable rfl
    refine State.Revises.same ?_ (roundsNotice_dueTable _)
    split
    · exact tableNotice_revises st (hu.same rfl)
    · exact (tableNotice_revises st hu).same rfl
  · exact revises_refl s

/-! ### Outcomes and failures -/

theorem checkComplete_revises (s : State) : s.Revises (checkComplete s) := by
  have hreport (need : Need) (t : State) : t.Revises (reportCheckComplete need t) := by
    unfold reportCheckComplete
    split
    · exact entryCheckComplete_revises ..
    all_goals exact revises_refl t
  unfold checkComplete
  split
  · extract_lets t
    refine State.Revises.trans ?_ (hreport _ _)
    split <;> exact revises_of_dueTable rfl
  · exact revises_refl s

theorem goOff_revises (cause : MoveCause) (s : State) : s.Revises (goOff cause s) := revises_of_empty rfl rfl

theorem reportFailed_revises (need : Need) (s : State) : s.Revises (reportFailed need s) := by
  have hleave : s.Revises (leaveFailed s) := by
    unfold leaveFailed
    split
    · exact goOff_revises ..
    · exact revises_of_dueTable rfl
  unfold reportFailed
  split
  · exact revises_refl s
  · exact revises_refl s
  · exact entryFailed_revises ..
  · split
    · exact hleave
    · exact revises_refl s

theorem reportCompleted_revises (need : Need) (acks : StationSet) (held : Bool) (s : State) :
    s.Revises (reportCompleted need acks held s) := by
  unfold reportCompleted
  split
  · split <;> exact revises_of_dueTable rfl
  · split
    · exact revises_of_dueTable (markCompleted_dueTable s)
    · exact revises_refl s
  · exact entryCompleted_revises ..
  · split
    · exact goOff_revises ..
    · exact revises_refl s

theorem frameCompleted_revises (s : State) : s.Revises (frameCompleted s) := by
  unfold frameCompleted
  split
  · split
    · rename_i need _ _
      extract_lets t
      have ht : s.Revises { t with engine.run := 0 } := revises_of_dueTable rfl
      exact ht.trans (reportCompleted_revises need _ _ _)
    · exact revises_refl s
  · exact revises_refl s

theorem faultAtLimit_revises (o : FaultOrder) (h : s.Revises t) : s.Revises (faultAtLimit o t) := by
  unfold faultAtLimit
  split
  · exact h.trans (enterFault_revises ..)
  · exact h

theorem failOwn_revises (o : FaultOrder) (need : Need) (h : s.Revises t) : s.Revises (failOwn o need t) :=
  faultAtLimit_revises o ((h.same (u := countFailure t) rfl).trans (reportFailed_revises need _))

theorem cutByLine_revises (o : FaultOrder) (h : s.Revises t) : s.Revises (cutByLine o t) := by
  have hend : s.Revises (endFrame t) := h.same rfl
  unfold cutByLine
  split
  · exact failOwn_revises o _ hend
  · exact hend
  · exact hend

theorem startBitRecessive_revises (o : FaultOrder) (driven : Bool) (s : State) : s.Revises (startBitRecessive o driven s) := by
  unfold startBitRecessive
  split
  · exact revises_of_dueTable rfl
  · split
    · extract_lets _ _ t
      have ht : s.Revises t := revises_of_dueTable rfl
      split
      · split
        · exact failOwn_revises o _ ht
        · exact ht
      · exact ht
    · exact cutByLine_revises o (revises_refl s)

theorem falseStart_revises (o : FaultOrder) (s : State) : s.Revises (falseStart o s) := by
  unfold falseStart
  split
  · exact startBitRecessive_revises ..
  · exact revises_refl s

theorem stopError_revises (o : FaultOrder) (s : State) : s.Revises (stopError o s) := by
  unfold stopError
  split
  · exact cutByLine_revises o (revises_refl s)
  · exact revises_refl s

theorem gapExpiry_revises (o : FaultOrder) (s : State) : s.Revises (gapExpiry o s) := by
  unfold gapExpiry
  split
  · exact cutByLine_revises o (revises_refl s)
  · exact revises_refl s

theorem lineStuck_revises (o : FaultOrder) (s : State) : s.Revises (lineStuck o s) := by
  unfold lineStuck
  split
  · exact cutByLine_revises o (revises_of_dueTable rfl)
  · exact revises_refl s

theorem collision_revises (o : FaultOrder) (s : State) : s.Revises (collision o s) := by
  unfold collision
  split
  · exact failOwn_revises o _ (revises_of_dueTable rfl)
  · exact revises_refl s

theorem driverFailure_revises (o : FaultOrder) (s : State) : s.Revises (driverFailure o s) := by
  have hbit : s.Revises (deadBit o s) := by
    unfold deadBit
    split
    · exact failOwn_revises o _ (revises_of_dueTable rfl)
    · exact faultAtLimit_revises o (revises_of_dueTable rfl)
    · exact revises_refl s
  unfold driverFailure
  split
  · exact hbit
  · exact startBitRecessive_revises ..
  · exact revises_refl s

/-! ### Acceptance -/

/-- An acceptance instant keeps the table where the taking and the hearing of a frame of another station do. -/
theorem acceptFrame_keepsTable (kind : FrameKind) (o : FaultOrder) {take hear : Station → List Byte → State → State × Bool}
    (htake : ∀ n payload (s : State), n ≠ s.own → s.KeepsTable (take n payload s).1)
    (hhear : ∀ n payload (s : State), n ≠ s.own → s.KeepsTable (hear n payload s).1) (s : State) :
    s.KeepsTable (acceptFrame kind o take hear s) := by
  have hat : s.KeepsTable (atAcceptance s) := keepsTable_of_dueTable rfl
  have hhand {n : Station} (hn : n ≠ s.own) (payload : List Byte) :
      s.KeepsTable (handOn (take n payload) (hear n payload) (atAcceptance s)) := by
    unfold handOn
    split
    · have htaken := hat.trans (htake n payload (atAcceptance s) hn)
      extract_lets r
      split
      · exact htaken.same rfl
      · exact htaken
    · split
      · exact hat.trans (hhear n payload (atAcceptance s) hn)
      · exact hat
  unfold acceptFrame
  split
  · split
    · split
      · exact hat.trans (enterFault_revises ..).keepsTable
      · split
        · exact (hhand (passes_other ‹_› ‹_›) _).same rfl
        · exact hat.same rfl
    · exact keepsTable_refl s
  · exact keepsTable_refl s

theorem acceptUnknown_revises (o : FaultOrder) (s : State) : s.Revises (acceptUnknown o s) := by
  have hat : s.Revises (atAcceptance s) := revises_of_dueTable rfl
  unfold acceptUnknown
  split
  · split
    · split
      · exact hat.trans (enterFault_revises ..)
      · exact hat.same rfl
    · exact revises_refl s
  · exact revises_refl s

theorem takeNothing_keepsTable (n : Station) (payload : List Byte) (s : State) (_ : n ≠ s.own) :
    s.KeepsTable (takeNothing n payload s).1 := keepsTable_refl s

theorem syncAccepted_keepsTable (o : FaultOrder) (s : State) : s.KeepsTable (syncAccepted o s) := by
  refine acceptFrame_keepsTable .sync o (fun n payload s _ => ?_) (fun n payload s _ => ?_) s
  · unfold takeSync
    split
    · exact (syncReceived_revises ..).keepsTable
    · exact keepsTable_refl s
  · unfold hearSync
    split
    · exact keepsTable_of_dueTable (syncHeard_dueTable ..)
    · exact keepsTable_refl s

theorem leaveAccepted_keepsTable (o : FaultOrder) (s : State) : s.KeepsTable (leaveAccepted o s) :=
  acceptFrame_keepsTable .leave o (fun n _ s _ => (leaveReceived_revises n s).keepsTable) takeNothing_keepsTable s

theorem proposeAccepted_keepsTable (o : FaultOrder) (s : State) : s.KeepsTable (proposeAccepted o s) :=
  acceptFrame_keepsTable .propose o (fun _ payload _ hother => memberPropose_keepsTable payload hother) takeNothing_keepsTable s

theorem commitAccepted_keepsTable (o : FaultOrder) (s : State) : s.KeepsTable (commitAccepted o s) :=
  acceptFrame_keepsTable .commit o (fun n payload s _ => (memberCommit_revises s.own n payload s).keepsTable) takeNothing_keepsTable s

theorem cancelAccepted_keepsTable (o : FaultOrder) (s : State) : s.KeepsTable (cancelAccepted o s) :=
  acceptFrame_keepsTable .cancel o (fun _ _ s _ => ((revises_refl s).remove _).keepsTable) takeNothing_keepsTable s

theorem markAccepted_keepsTable (o : FaultOrder) (s : State) : s.KeepsTable (markAccepted o s) :=
  acceptFrame_keepsTable .mark o (fun n payload s _ => keepsTable_of_dueTable (memberMark_dueTable n payload s)) takeNothing_keepsTable s

/-! ### The commands of the host -/

theorem takeCommand_keepsTable (code : Byte) (args : Nat) {owner : List Byte → State → State}
    (howner : ∀ a (s : State), s.KeepsTable (owner a s)) (s : State) : s.KeepsTable (takeCommand code args owner s) := by
  have hjudged : s.KeepsTable (clearEnded s) := keepsTable_of_dueTable rfl
  rcases takeCommand_cases code args owner s with ⟨a, he⟩ | he | he <;> rw [he]
  · exact hjudged.trans (howner a _)
  · exact hjudged.same rfl
  · exact keepsTable_refl s

theorem takeCommand_dueTable (code : Byte) (args : Nat) {owner : List Byte → State → State}
    (howner : ∀ a s, (owner a s).dueTable = s.dueTable) (s : State) : s.KeepsTable (takeCommand code args owner s) :=
  takeCommand_keepsTable code args (fun a s => keepsTable_of_dueTable (howner a s)) s

theorem ownStart_keepsTable (a : List Byte) (s : State) : s.KeepsTable (ownStart a s) := by
  unfold ownStart
  split
  · exact keepsTable_of_dueTable rfl
  · split
    · exact keepsTable_of_dueTable rfl
    · exact keepsTable_of_empty rfl

theorem ownStop_keepsTable (a : List Byte) (s : State) : s.KeepsTable (ownStop a s) := by
  unfold ownStop
  split
  · exact keepsTable_of_dueTable rfl
  · exact keepsTable_of_empty rfl

theorem ownLeave_keepsTable (a : List Byte) (s : State) : s.KeepsTable (ownLeave a s) := by
  unfold ownLeave
  split
  · rw [enterLeaving_eq]
    exact keepsTable_of_empty rfl
  · exact keepsTable_of_dueTable rfl

/-- The station's own ids are those of its own entries (R112). -/
theorem owner_of_id {own : Station} {e : Entry} (hid : e.id.owner = own) (h : e.shaped own) : e.role = .owner := by
  obtain ⟨_, _, hmember, _⟩ := h
  cases hrole : e.role with
  | owner => rfl
  | member => exact absurd hid (hmember hrole).1

theorem cancelTaken_revises {e : Entry} (he : e ∈ s.table.entries) (hid : e.id.owner = s.own) : s.Revises (cancelTaken e s) := by
  have hallows : s.Allows e := allows_of_mem he
  have huncommitted (hstate : e.state = .pending ∨ e.state = .committing) : s.Revises (cancelUncommitted e s) :=
    (revises_refl s).putRaise (hallows.turn (cancelling_mayBecome .host hstate)) ..
  have harmed (hscope : e.scope = .shared) : s.Revises (cancelArmed e s) := by
    unfold cancelArmed
    extract_lets t
    have ht : s.Revises t := by
      unfold t
      split
      · exact endFollowUp_revises (revises_refl s) hallows
      · exact revises_refl s
    exact ht.putRaise (hallows.turn (toCancel_mayBecome _ fun hs => ⟨hscope, owner_of_id hid hs⟩)) ..
  unfold cancelTaken
  split
  case isTrue => exact ((revises_refl s).remove e.id).same rfl
  case isFalse hscope =>
    split
    · exact huncommitted (.inl ‹_›)
    · exact huncommitted (.inr ‹_›)
    · refine harmed ?_
      cases h : e.scope with
      | shared => rfl
      | loc => exact absurd h hscope
    · exact revises_refl s
    · exact revises_refl s

theorem ownCancel_keepsTable (a : List Byte) (s : State) : s.KeepsTable (ownCancel a s) := by
  have hreply (st : Status) : s.KeepsTable (reply st [] s) := keepsTable_of_dueTable rfl
  unfold ownCancel
  split
  · exact hreply _
  · split
    · exact hreply _
    · split
      · exact hreply _
      · rename_i e hfound
        split
        · exact hreply _
        · split
          · exact hreply _
          · have hid : e.id.owner = s.own := by rw [entry?_id hfound]
            exact (cancelTaken_revises (entry?_mem hfound) hid).keepsTable.same rfl

theorem hostCommands_keepsTable : ∀ f ∈ hostCommands, ∀ s : State, s.KeepsTable (f s) := by
  simp only [hostCommands, List.forall_mem_cons]
  exact ⟨fun s => keepsTable_of_dueTable (badCommand_dueTable s), takeCommand_dueTable _ _ fun _ _ => rfl,
    takeCommand_dueTable _ _ ownConfigure_dueTable, takeCommand_keepsTable _ _ ownStart_keepsTable,
    takeCommand_keepsTable _ _ ownStop_keepsTable, takeCommand_keepsTable _ _ ownLeave_keepsTable,
    takeCommand_dueTable _ _ fun _ _ => rfl, takeCommand_dueTable _ _ fun _ _ => rfl, takeCommand_dueTable _ _ ownReadPeer_dueTable,
    takeCommand_dueTable _ _ ownReadAction_dueTable, takeCommand_keepsTable _ _ ownPropose_keepsTable,
    takeCommand_keepsTable _ _ ownSchedule_keepsTable, takeCommand_keepsTable _ _ ownCancel_keepsTable,
    takeCommand_dueTable _ _ ownTakeReport_dueTable, takeCommand_dueTable _ _ ownTakeCapture_dueTable, List.forall_mem_nil _⟩

/-! ### The boundary -/

theorem settleFinding_keepsTable (s : State) : s.KeepsTable (settleFinding s) := by
  unfold settleFinding
  split
  · exact keepsTable_refl s
  · exact keepsTable_of_dueTable (frameStart_dueTable s)
  · exact (falseStart_revises ..).keepsTable
  · exact keepsTable_of_dueTable (arbitrationLost_dueTable s)
  · exact (collision_revises ..).keepsTable
  · exact (driverFailure_revises ..).keepsTable
  · exact (stopError_revises ..).keepsTable
  · exact (gapExpiry_revises ..).keepsTable
  · exact (checkComplete_revises s).keepsTable
  · exact (frameCompleted_revises s).keepsTable
  · exact keepsTable_of_dueTable (receivedFrameEnd_dueTable s)
  · exact keepsTable_of_dueTable (lengthAbove24_dueTable s)
  · split
    · exact syncAccepted_keepsTable ..
    · exact leaveAccepted_keepsTable ..
    · exact proposeAccepted_keepsTable ..
    · exact commitAccepted_keepsTable ..
    · exact cancelAccepted_keepsTable ..
    · exact markAccepted_keepsTable ..
    · exact (acceptUnknown_revises ..).keepsTable

/-- The deadlines and the firings of a period revise the due list. -/
theorem settleTable_revises (s : State) : s.Revises (settleActions (settleDeadlines s)) := by
  have hfirings (n : Nat) {t : State} (h : s.Revises t) : s.Revises (settleFirings n t) := by
    induction n generalizing t with
    | zero => exact h
    | succ n ih => exact ih (h.trans (actionDue_revises t))
  have hdeadlines : s.Revises (settleDeadlines s) := by
    refine State.Revises.foldl (fun t h id _ => h.trans (followUpDeadline_revises id t)) ?_
    exact State.Revises.foldl (fun t h id _ => h.trans (deadlineEvent_revises id t)) (revises_refl s)
  exact hfirings _ (State.Revises.foldl (fun t h c _ => h.same (pulseEnd_dueTable c t)) hdeadlines)

theorem settleCaptures_dueTable (s : State) : (settleCaptures s).dueTable = s.dueTable := by
  simp only [settleCaptures, captureEdge_dueTable]

/-- The events of a period that are still outstanding at its end, one behind the other. -/
theorem settle_keepsTable (s : State) : s.KeepsTable (settle s) := by
  have hfinding := (stepNotice_revises true s).keepsTable.trans (settleFinding_keepsTable _)
  have hline := (hfinding.trans (lineStuck_revises .stateFirst _).keepsTable).same (lineQuiet_dueTable _)
  have hstarted := (hline.same (listenTimeout_dueTable _)).same (roundStart_dueTable _)
  have hrounds := hstarted.trans (roundClose_revises ⟨[], .noticesDiscardMove⟩ _).keepsTable
  have hactions := hrounds.trans (settleTable_revises _).keepsTable
  have hcaptures := hactions.same (settleCaptures_dueTable _)
  have htransaction : s.KeepsTable (takeTransaction _) :=
    List.foldlRecOn hostCommands _ hcaptures fun t ht f hf => ht.trans (hostCommands_keepsTable f hf t)
  exact htransaction.same (access_dueTable _)

theorem commonTimeAdvance_keepsTable (pins : Pins) (s : State) : s.KeepsTable (commonTimeAdvance pins s) := by
  have hboundary (t : State) : (boundary t).dueTable = t.dueTable := rfl
  exact (settle_keepsTable s).same ((readInputs_dueTable ..).trans (hboundary _))

/-! ### Every row -/

/-- Every row answers a next state that keeps the table. -/
theorem exec_keepsTable (i : Instr) (s : State) : ∃ t, exec i s = .next t ∧ s.KeepsTable t := by
  have hcommand (f : State → State) (hf : f ∈ hostCommands) : s.KeepsTable (f s) := hostCommands_keepsTable f hf s
  simp only [hostCommands, List.forall_mem_cons] at hcommand
  obtain ⟨hbad, hnop, hconfigure, hstart, hstop, hleave, htime, hstatus, hpeer, haction, hpropose, hschedule, hcancel, hreport,
    hcapture, _⟩ := hcommand
  cases i with
  | powerOnReset pins => exact ⟨_, exec_powerOnReset pins s, keepsTable_of_empty rfl⟩
  | resetN pins => exact ⟨_, exec_resetN pins s, keepsTable_of_empty rfl⟩
  | badCommand => exact ⟨_, exec_badCommand s, hbad⟩
  | nop => exact ⟨_, exec_nop s, hnop⟩
  | configure => exact ⟨_, exec_configure s, hconfigure⟩
  | start => exact ⟨_, exec_start s, hstart⟩
  | stop => exact ⟨_, exec_stop s, hstop⟩
  | leave => exact ⟨_, exec_leave s, hleave⟩
  | readTime => exact ⟨_, exec_readTime s, htime⟩
  | readStatus => exact ⟨_, exec_readStatus s, hstatus⟩
  | readPeer => exact ⟨_, exec_readPeer s, hpeer⟩
  | readAction => exact ⟨_, exec_readAction s, haction⟩
  | propose => exact ⟨_, exec_propose s, hpropose⟩
  | schedule => exact ⟨_, exec_schedule s, hschedule⟩
  | cancel => exact ⟨_, exec_cancel s, hcancel⟩
  | takeReport => exact ⟨_, exec_takeReport s, hreport⟩
  | takeCapture => exact ⟨_, exec_takeCapture s, hcapture⟩
  | lineQuiet => exact ⟨_, exec_lineQuiet s, keepsTable_of_dueTable (lineQuiet_dueTable s)⟩
  | lineStuck o => exact ⟨_, exec_lineStuck o s, (lineStuck_revises o s).keepsTable⟩
  | access => exact ⟨_, exec_access s, keepsTable_of_dueTable (access_dueTable s)⟩
  | frameStart => exact ⟨_, exec_frameStart s, keepsTable_of_dueTable (frameStart_dueTable s)⟩
  | falseStart o => exact ⟨_, exec_falseStart o s, (falseStart_revises o s).keepsTable⟩
  | stopError o => exact ⟨_, exec_stopError o s, (stopError_revises o s).keepsTable⟩
  | gapExpiry o => exact ⟨_, exec_gapExpiry o s, (gapExpiry_revises o s).keepsTable⟩
  | arbitrationLost => exact ⟨_, exec_arbitrationLost s, keepsTable_of_dueTable (arbitrationLost_dueTable s)⟩
  | collision o => exact ⟨_, exec_collision o s, (collision_revises o s).keepsTable⟩
  | driverFailure o => exact ⟨_, exec_driverFailure o s, (driverFailure_revises o s).keepsTable⟩
  | checkComplete => exact ⟨_, exec_checkComplete s, (checkComplete_revises s).keepsTable⟩
  | frameCompleted => exact ⟨_, exec_frameCompleted s, (frameCompleted_revises s).keepsTable⟩
  | syncAccepted o => exact ⟨_, exec_syncAccepted o s, syncAccepted_keepsTable o s⟩
  | leaveAccepted o => exact ⟨_, exec_leaveAccepted o s, leaveAccepted_keepsTable o s⟩
  | proposeAccepted o => exact ⟨_, exec_proposeAccepted o s, proposeAccepted_keepsTable o s⟩
  | commitAccepted o => exact ⟨_, exec_commitAccepted o s, commitAccepted_keepsTable o s⟩
  | cancelAccepted o => exact ⟨_, exec_cancelAccepted o s, cancelAccepted_keepsTable o s⟩
  | markAccepted o => exact ⟨_, exec_markAccepted o s, markAccepted_keepsTable o s⟩
  | listenTimeout => exact ⟨_, exec_listenTimeout s, keepsTable_of_dueTable (listenTimeout_dueTable s)⟩
  | roundStart => exact ⟨_, exec_roundStart s, keepsTable_of_dueTable (roundStart_dueTable s)⟩
  | roundClose o => exact ⟨_, exec_roundClose o s, (roundClose_revises o s).keepsTable⟩
  | stepNotice first => exact ⟨_, exec_stepNotice first s, (stepNotice_revises first s).keepsTable⟩
  | actionDue => exact ⟨_, exec_actionDue s, (actionDue_revises s).keepsTable⟩
  | pulseEnd c => exact ⟨_, exec_pulseEnd c s, keepsTable_of_dueTable (pulseEnd_dueTable c s)⟩
  | deadlineEvent id => exact ⟨_, exec_deadlineEvent id s, (deadlineEvent_revises id s).keepsTable⟩
  | followUpDeadline id => exact ⟨_, exec_followUpDeadline id s, (followUpDeadline_revises id s).keepsTable⟩
  | captureEdge => exact ⟨_, exec_captureEdge s, keepsTable_of_dueTable (captureEdge_dueTable s)⟩
  | commonTimeAdvance pins => exact ⟨_, exec_commonTimeAdvance pins s, commonTimeAdvance_keepsTable pins s⟩
  | resetNAsserted => exact ⟨_, exec_resetNAsserted s, keepsTable_of_dueTable rfl⟩
  | receivedFrameEnd => exact ⟨_, exec_receivedFrameEnd s, keepsTable_of_dueTable (receivedFrameEnd_dueTable s)⟩
  | lengthAbove24 => exact ⟨_, exec_lengthAbove24 s, keepsTable_of_dueTable (lengthAbove24_dueTable s)⟩

theorem step_keepsTable (h : step s = .next t) : s.KeepsTable t := by
  unfold step at h
  split at h
  · cases h
    exact keepsTable_refl s
  · rename_i i rest _
    obtain ⟨u, hexec, hu⟩ := exec_keepsTable i { s with pending := rest }
    cases hexec.symm.trans h
    have hpopped : s.KeepsTable { s with pending := rest } := keepsTable_of_dueTable rfl
    exact hpopped.trans hu

/-- Settles O56: a row removes entries, puts what they may become under their ids (`State.Revises.dueListKept`), or puts a new entry into a
free place (`putEntry_keepsTable`). -/
theorem stepKeepsTheDueList : Obligations.StepKeepsTheDueList := fun _ _ h => (step_keepsTable h).due

/-- Settles O57: what an entry may become is sound where the entry was (`State.Revises.entriesSound`), and a new entry is sound
(`putEntry_keepsTable`). -/
theorem stepKeepsTheEntriesSound : Obligations.StepKeepsTheEntriesSound := fun _ _ h => (step_keepsTable h).sound

end Sys2Proof.Machine
end

section
/-! PROOFS. SCHEDULE (O13). -/

namespace Sys2Proof.Machine

variable {s : State} {a : ActionArgs} {filler : List Byte} {id : ActionId} {scope : Scope} {role : ActionRole} {state : EntryState}
  {e : Entry}

/-! ### The fields and the id of a new entry -/

theorem actionBytes_length (a : ActionArgs) : a.bytes.length = 19 := by simp [ActionArgs.bytes, byte1, beBytes_length]

theorem entry?_eq_none (h : ¬a.pass) : a.entry? id scope role state = none :=
  Option.eq_none_iff_forall_ne_some.2 fun _ he => h (pass_of_entry? he)

theorem exists_entry?_of_pass (h : a.pass) : ∃ e, a.entry? id scope role state = some e ∧ e.due = a.due := by
  obtain ⟨output, edge, mode, hcoded⟩ := exists_coded_of_pass h
  exact ⟨_, entry?_of_pass hcoded h, rfl⟩

/-- In a table with a free place the drawn id is new (R110, R112). -/
theorem dropEntry_nextId (hroom : s.table.entries.length < 32) : dropEntry s.nextId s.table.entries = s.table.entries := by
  have hseqs : s.ownSeqs.length ≤ s.table.entries.length := by
    rw [State.ownSeqs, List.length_map]
    exact List.length_filter_le ..
  obtain ⟨hfree, _⟩ := nextSeq_first (s := s) (by omega)
  refine List.filter_eq_self.2 fun x hx => ?_
  rw [bne_iff_ne]
  intro hid
  refine hfree (List.mem_map.2 ⟨x, List.mem_filter.2 ⟨hx, ?_⟩, congrArg ActionId.seq hid⟩)
  exact beq_iff_eq.2 (congrArg ActionId.owner hid)

/-! ### The checks and the entry -/

/-- A whole SCHEDULE: the station's state, the fields, the due, the LOCAL places and the table's, in this order (R117). -/
theorem commandSchedule_eq (houtput : a.output < 256) (hedge : a.edge < 256) (hmode : a.mode < 256) (h : s.holds 0x21 a.bytes filler) :
    commandSchedule s =
      if s.ctl.state = .off ∨ s.ctl.state = .leaving then s.answered .badState []
      else
        (a.entry? s.nextId .loc .owner .armed).elim (s.answered .badArg []) fun e =>
          if e.due ≤ s.now then s.answered .tooSoon []
          else if 8 ≤ s.localCount then s.answered .localFull []
          else if 32 ≤ s.table.entries.length then s.answered .tableFull []
          else scheduleTaken e (clearEnded s) := by
  refine (takeCommand_holds h (actionBytes_length a) ownSchedule).trans ?_
  rw [ownSchedule, decodeActionArgs_bytes a houtput hedge hmode, show (clearEnded s).nextId = s.nextId from rfl]
  cases a.entry? s.nextId .loc .owner .armed <;> rfl

/-- A taken SCHEDULE puts its entry in its place among the others, and answers the id (R110, R114, R117). -/
theorem scheduleTaken_eq (hid : e.id = s.nextId) (hroom : s.table.entries.length < 32) :
    scheduleTaken e (clearEnded s) =
      { s.answered .ok [BitVec.ofNat 8 s.own.val, s.nextSeq] with
        ctl.seq := s.nextSeq + 1
        table.entries := insertEntry e s.table.entries } := by
  have hentries : insertEntry e (dropEntry e.id s.table.entries) = insertEntry e s.table.entries := by
    rw [hid, dropEntry_nextId hroom]
  have hanswer : idBytes e.id = [BitVec.ofNat 8 s.own.val, s.nextSeq] := by
    rw [hid]
    rfl
  rw [← hentries, ← hanswer]
  rfl

/-- Settles O13: the checks are those of `commandSchedule_eq`, and `scheduleTaken_eq` writes the taken one out. -/
theorem scheduleMakesALocalEntry : Obligations.ScheduleMakesALocalEntry := by
  intro s a filler houtput hedge hmode h mayTake
  rw [exec_schedule, commandSchedule_eq houtput hedge hmode h]
  have hmay (hm : mayTake) : ¬(s.ctl.state = .off ∨ s.ctl.state = .leaving) := not_or.2 hm
  refine ⟨fun hm => ?_, fun hm hfail => ?_, fun hm hpass => ?_, fun hm hpass => ?_, fun hm hpass => ?_,
    fun hm hpass hdue hlocals hroom => ?_⟩
  · rw [if_pos (by simpa [mayTake, ← or_iff_not_imp_left] using hm)]
  · rw [if_neg (hmay hm), entry?_eq_none hfail, Option.elim_none]
  all_goals
    obtain ⟨e, he, hedue⟩ := exists_entry?_of_pass (id := s.nextId) (scope := .loc) (role := .owner) (state := .armed) hpass
    rw [if_neg (hmay hm), he, Option.elim_some, hedue]
  · intro hdue
    rw [if_pos hdue]
  · intro hdue hfull
    rw [if_neg (BitVec.not_le.2 hdue), if_pos hfull]
  · intro hdue hlocals hfull
    rw [if_neg (BitVec.not_le.2 hdue), if_neg (not_le.2 hlocals), if_pos hfull]
  · rw [if_neg (BitVec.not_le.2 hdue), if_neg (not_le.2 hlocals), if_neg (not_le.2 hroom), scheduleTaken_eq (entry?_keeps_id he) hroom]
    exact ⟨e, rfl, rfl⟩

end Sys2Proof.Machine
end

section
/-! PROOFS. ACTION_DUE, PULSE_END and the occurrences that a late firing skips (O45). -/

namespace Sys2Proof.Machine

variable {s : State} {e : Entry} {now : Time}

/-! ### The outputs -/

theorem nextFiring_unhindered (hnotice : s.noticeDue = none) (hdeadlines : ∀ e ∈ s.table.entries, s.deadlineBeforeDue e = false) :
    s.nextFiring = s.table.entries.find? s.isDue := by
  have hnone : s.table.entries.any s.deadlineBeforeDue = false :=
    List.any_eq_false.2 fun e he => by simp [hdeadlines e he]
  simp [State.nextFiring, hnotice, hnone]

theorem endPulse_reached {o : Output} {p : Time} (hend : o.pulseEnd = some p) (h : p ≤ now) : o.endPulse now = ⟨false, none⟩ := by
  simp [Output.endPulse, hend, h]

/-- The pulse-end stage comes before the first firing of the period on an output, and no later one (R120). -/
theorem pulseEnded_eq (s : State) (c : Channel) :
    s.pulseEnded c = if c ∈ s.table.firedOutputs then s.output c else (s.output c).endPulse s.now := by
  by_cases hfired : c ∈ s.table.firedOutputs
  · rw [pulseEnded_fired hfired, if_pos hfired]
  · rw [pulseEnded_unfired hfired, if_neg hfired]

/-! ### A firing without a forward step -/

/-- The ACTION_FIRED of a firing that is not late: no occurrence is skipped (R116, R118). -/
theorem firedReport_onTime (e : Entry) (now : Time) (st : StationState) :
    e.firedReport false now st =
      .actionFired e.id (min 65535 (e.fired + e.skipped + 1)) (now - e.due)
        ⟨false, st == .holdover, st == .listen || st == .joining || st == .fault⟩ 0 := by
  rw [← unsynced_eq]
  exact congrArg (ReportKind.actionFired _ _ _ _) (skippedField_of_le (Nat.zero_le _))

/-- The edge applied, the firing marked and reported, the entry as it was (R116, R118, R119). -/
def State.firing (s : State) (e : Entry) : State :=
  { s with
    table.outputs :=
      s.table.outputs.set e.output
        ((s.pulseEnded e.output).apply e.edge (e.due + BitVec.ofNat 64 ((e.width.getD 0).toNat * 100)))
    table.firedNow := e.id :: s.table.firedNow
    table.firedOutputs := e.output :: s.table.firedOutputs
    reports.records :=
      if e.mode = .each then s.joined (e.firedReport false s.now s.ctl.state) s.reports.records else s.reports.records }

theorem firing_eq (e : Entry) (s : State) : fireReport false e (markFired e (fireOutput false e s)) = s.firing e := by
  unfold fireReport State.firing
  split <;> rfl

/-- The last occurrence of a counted entry (R116). -/
theorem planOnTime_ends_iff (e : Entry) : e.planOnTime.ends = true ↔ e.count ≠ 0 ∧ e.count.toNat ≤ e.fired + 1 + e.skipped := by
  simp [Entry.planOnTime]

theorem fire_onTime (e : Entry) (s : State) :
    fire false e s =
      if e.planOnTime.ends then queueReport (.actionDone e.id) (removeEntry e.id (s.firing e))
      else putEntry (e.afterFiring false s.now) (s.firing e) := by
  rw [fire, firing_eq]
  rfl

/-! ### Late firings -/

/-- The occurrences that common time has reached: the due, and one more for each whole period since (R122). -/
theorem passed_eq {k : Nat} (hdue : e.due ≤ now) (hpos : 1 ≤ k)
    (h : e.period = 0 ∧ k = 1
      ∨ e.period ≠ 0 ∧ e.due.toNat + (k - 1) * e.period.toNat ≤ now.toNat ∧ now.toNat < e.due.toNat + k * e.period.toNat) :
    e.passed now = k := by
  unfold Entry.passed
  rcases h with ⟨hperiod, rfl⟩ | ⟨hperiod, hreached, hahead⟩
  · exact if_pos hperiod
  · obtain ⟨j, rfl⟩ : ∃ j, k = j + 1 := ⟨k - 1, by omega⟩
    rw [if_neg hperiod, BitVec.toNat_sub_of_le hdue]
    have hquotient : (now.toNat - e.due.toNat) / e.period.toNat = j :=
      Nat.div_eq_of_lt_le (by simpa using Nat.le_sub_of_add_le' hreached) (by omega)
    rw [hquotient]

/-- A late firing that leaves the entry in the table moves its due behind the occurrences reached (R122). -/
theorem planLate_goes (h : e.count = 0 ∨ e.passed now < e.count.toNat - e.fired - e.skipped) :
    e.planLate now = ⟨e.passed now - 1, false, e.due + BitVec.ofNat 64 (e.passed now * e.period.toNat)⟩ := by
  by_cases hcount : e.count = 0
  · exact if_pos hcount
  · exact (if_neg hcount).trans (if_pos (h.resolve_left hcount))

/-- A late firing whose occurrences use up the count ends the entry (R122). -/
theorem planLate_ends (hcount : e.count ≠ 0) (h : e.count.toNat - e.fired - e.skipped ≤ e.passed now) :
    (e.planLate now).ends = true ∧ (e.planLate now).skip = e.count.toNat - e.fired - e.skipped - 1 := by
  have hplan : e.planLate now =
      ⟨e.count.toNat - e.fired - e.skipped - 1, true, e.due + BitVec.ofNat 64 (e.passed now * e.period.toNat)⟩ :=
    (if_neg hcount).trans (if_neg (not_lt.2 h))
  rw [hplan]
  exact ⟨rfl, rfl⟩

/-! ### The obligation -/

theorem exec_actionDue_onTime (hnext : s.nextFiring = some e) (hforward : s.forwardStepPeriod = false) :
    exec .actionDue s = .next (fire false e s) := by
  rw [exec_actionDue, actionDue, hnext, hforward]

/-- Settles O45: a firing by `fire_onTime`, a pulse end by `endPulse_reached`, and the late plan of the occurrences that
`passed_eq` counts. -/
theorem dueActionsFire : Obligations.DueActionsFire := by
  refine ⟨⟨fun edge t o => ?_, fun s hnotice hdeadlines => nextFiring_unhindered hnotice hdeadlines, fun s e hnext hforward => ?_⟩,
    fun s c p hnotice hfired hend hreached => ?_, fun e now k hdue hpos hk => ?_⟩
  · rcases o with ⟨high, _ | p⟩ <;> cases edge <;> rfl
  · intro report flags records before t
    have hbefore : before = s.pulseEnded e.output := by
      rw [pulseEnded_eq, Output.endPulse]
      unfold before
      cases (s.output e.output).pulseEnd with
      | none => rfl
      | some p => simp only [decide_eq_true_eq]
    have hrecords : records = (s.firing e).reports.records := by
      unfold records State.firing
      rw [firedReport_onTime]
      rfl
    have ht : t = s.firing e := by
      unfold t
      rw [hbefore, hrecords]
      rfl
    rw [exec_actionDue_onTime hnext hforward, fire_onTime, ht]
    refine ⟨fun hgoes => ?_, fun hcount hlast => ?_⟩
    · rw [if_neg]
      · rfl
      · rw [planOnTime_ends_iff]
        rintro ⟨hcount, hlast⟩
        exact hgoes.elim hcount (not_lt.2 hlast)
    · rw [if_pos ((planOnTime_ends_iff e).2 ⟨hcount, hlast⟩), hrecords]
      rfl
  · rw [exec_pulseEnd, pulseEnd, hnotice, pulseEnded_unfired hfired, endPulse_reached hend hreached]
    rfl
  · rw [← passed_eq hdue hpos hk]
    exact ⟨planLate_goes, planLate_ends⟩

end Sys2Proof.Machine
end

section
/-! PROOFS. The member side: PROPOSE (O34), COMMIT (O35), CANCEL (O36), and the deadline of a HELD copy (O46). -/

namespace Sys2Proof.Machine

variable {s t : State} {kind : FrameKind} {f : Frame} {n : Station} {e x : Entry} {id : ActionId}
  {take hear : Station → List Byte → State → State × Bool}

/-! ### The due list -/

theorem dropEntry_insertEntry (e : Entry) (entries : List Entry) :
    dropEntry e.id (insertEntry e entries) = dropEntry e.id entries := by
  induction entries with
  | nil => simp [insertEntry, dropEntry]
  | cons a rest ih =>
    rw [insertEntry]
    split
    · simp [dropEntry]
    · simp only [dropEntry, List.filter_cons] at ih ⊢
      rw [ih]

theorem dropEntry_dropEntry (id : ActionId) (entries : List Entry) : dropEntry id (dropEntry id entries) = dropEntry id entries := by
  simp [dropEntry, List.filter_filter]

/-! ### Frames that a block takes and frames that it declines -/

/-- A frame that its block takes in a station that takes part: what the block does, and the ack (R30, R32). -/
theorem acceptFrame_taken (haccepts : s.accepts kind f n) (hpart : s.ctl.state.takesPart = true)
    (htake : take n f.payload (atAcceptance s) = (t, true)) (o : FaultOrder) : acceptFrame kind o take hear s = t.acked := by
  rw [acceptFrame_accepts haccepts, handOn_acked (s := atAcceptance s) hpart htake]
  rfl

/-- A frame that its block declines in a station that takes part: what the block does, and no ack (R30). -/
theorem acceptFrame_declined (haccepts : s.accepts kind f n) (hpart : s.ctl.state.takesPart = true)
    (htake : take n f.payload (atAcceptance s) = (t, false)) (o : FaultOrder) :
    acceptFrame kind o take hear s = dropLatch t := by
  rw [acceptFrame_accepts haccepts, handOn_unacked (s := atAcceptance s) hpart htake]

/-! ### The deadline of a HELD copy -/

/-- The deadline event of a HELD copy (R140). -/
theorem deadlineEvent_held (he : s.entry? id = some e) (hdue : s.deadlineDue e = true) (hheld : e.state = .held) :
    deadlineEvent id s =
      { s with
        table.entries := dropEntry id s.table.entries
        engine.needs := s.engine.needs.filter fun n => n.source != .entry id
        reports.records := s.reported (.heldExpired id) s.ctl.state } := by
  obtain rfl := entry?_id he
  rw [deadlineEvent_due he hdue, answerDeadline, hheld]
  rfl

/-- Settles O46: the deadline is reached, so the event is due and takes the copy (`deadlineEvent_held`). -/
theorem heldCopyExpires : Obligations.HeldCopyExpires := by
  intro s e he hscope hheld hfinal hreached
  have hreached' : s.deadlineReached e = true := decide_eq_true hreached
  have hdue : s.deadlineDue e = true := by simp [State.deadlineDue, hscope, hheld, hfinal, hreached']
  refine ⟨_, ?_, entry?_dropped rfl, rfl⟩
  rw [exec_deadlineEvent, deadlineEvent_held he hdue hheld]

/-! ### CANCEL -/

theorem memberCancel_eq (n : Station) (payload : List Byte) (s : State) :
    memberCancel n payload s = (removeEntry ⟨n, payload.getD 0 0⟩ s, true) := by
  rw [memberCancel, ofNat_field_zero]

/-- Settles O36: the CANCEL is taken whether or not a copy is held (`memberCancel_eq`). -/
theorem acceptedCancelRemovesTheCopy : Obligations.AcceptedCancelRemovesTheCopy := by
  intro s o f n haccepts hpart id
  have ⟨_, hframe, _⟩ := haccepts
  rw [exec_cancelAccepted, cancelAccepted, acceptFrame_taken haccepts hpart (memberCancel_eq ..), ← acked_atAcceptance hframe]
  rfl

/-! ### COMMIT -/

/-- The two bytes behind the sequence of a COMMIT are the set that it carries (12.2). -/
theorem commitSet_field (seq hi lo : Byte) : BitVec.ofNat 16 (field 1 2 [seq, hi, lo]) = (hi ++ lo : StationSet) := by
  have hhigh : (hi ++ lo : StationSet).extractLsb' 8 8 = hi := BitVec.extractLsb'_append_eq_left
  have hlow : (hi ++ lo : StationSet).extractLsb' 0 8 = lo := BitVec.extractLsb'_append_eq_right
  refine field_value (hi ++ lo : StationSet) ?_ (by decide)
  rw [beBytes_two, hhigh, hlow]
  rfl

variable {own : Station} {seq hi lo : Byte}

theorem memberCommit_unknown (h : s.entry? ⟨n, seq⟩ = none) : memberCommit own n [seq, hi, lo] s = (s, false) := by
  simp only [memberCommit, ofNat_field_zero, List.getD_cons_zero, h]

/-- A COMMIT of a HELD copy arms it where the set holds the own number, and drops it where it does not (R138). -/
theorem memberCommit_held (h : s.entry? ⟨n, seq⟩ = some e) (hheld : e.state = .held) :
    memberCommit own n [seq, hi, lo] s =
      if (hi ++ lo : StationSet).getLsbD own.val then
        (putEntry { e with state := .armed, armedSet := some (hi ++ lo : StationSet) } s, true)
      else (queueReport (.heldDropped ⟨n, seq⟩) (removeEntry ⟨n, seq⟩ s), false) := by
  simp only [memberCommit, ofNat_field_zero, List.getD_cons_zero, commitSet_field, h, hheld, StationSet.has]

theorem memberCommit_armed (h : s.entry? ⟨n, seq⟩ = some e) (harmed : e.state = .armed) :
    memberCommit own n [seq, hi, lo] s = (s, true) := by
  simp only [memberCommit, ofNat_field_zero, List.getD_cons_zero, h, harmed]

/-- Settles O35: the COMMIT by the copy that it finds (`memberCommit_unknown`, `memberCommit_held`, `memberCommit_armed`). -/
theorem commitArmsTheHeldCopy : Obligations.CommitArmsTheHeldCopy := by
  intro s o f n seq hi lo haccepts hpart hpayload id set
  have ⟨_, hframe, _⟩ := haccepts
  have taken {t : State} (htake : memberCommit s.own n [seq, hi, lo] (atAcceptance s) = (t, true)) :
      exec (.commitAccepted o) s = .next t.acked := by
    rw [exec_commitAccepted, commitAccepted, acceptFrame_taken haccepts hpart (by rw [hpayload]; exact htake)]
  have declined {t : State} (htake : memberCommit s.own n [seq, hi, lo] (atAcceptance s) = (t, false)) :
      exec (.commitAccepted o) s = .next (dropLatch t) := by
    rw [exec_commitAccepted, commitAccepted, acceptFrame_declined haccepts hpart (by rw [hpayload]; exact htake)]
  refine ⟨fun hnone => ?_, fun e he => ⟨fun hheld hown => ?_, fun hheld hown => ?_, fun harmed => ?_⟩⟩
  · rw [declined (memberCommit_unknown hnone), dropLatch_atAcceptance hframe]
  · rw [taken ((memberCommit_held (s := atAcceptance s) he hheld).trans (if_pos hown)), ← acked_atAcceptance hframe, ← entry?_id he]
    rfl
  · rw [declined ((memberCommit_held (s := atAcceptance s) he hheld).trans (if_neg (Bool.eq_false_iff.1 hown))),
      ← dropLatch_atAcceptance hframe]
    rfl
  · rw [taken (memberCommit_armed he harmed), acked_atAcceptance hframe]

/-! ### PROPOSE -/

/-- A PROPOSE: its fields, the station's state, the sender's member flag, the deadline, and what stands at its id, in this order
(R137). -/
theorem memberPropose_eq (n : Station) (payload : List Byte) (s : State) :
    let id : ActionId := ⟨n, payload.getD 0 0⟩
    memberPropose n payload s =
      ((decodeProposePayload payload).entry? id .shared .member .held).elim (s, false) fun e =>
        if s.ctl.state = .synced ∧ (s.peer n).member = true ∧ (s.now < e.due - s.cfg.marginNs ∨ s.expires id = true) then
          (s.entry? id).elim (if s.table.entries.length < 32 then (storeCopy e s, true) else (s, false)) fun x =>
            if x.state = .armed then (queueReport (.idClash id) s, false)
            else if x.state = .held ∨ s.table.entries.length < 32 then (storeCopy e s, true)
            else (s, false)
        else (s, false) := by
  intro id
  rw [memberPropose, ofNat_field_zero]
  cases (decodeProposePayload payload).entry? id .shared .member .held with
  | none => rfl
  | some e => cases hx : s.entry? id <;> simp only [Option.elim_some, Option.elim_none] <;> rfl

theorem entry?_keeps_kind {a : ActionArgs} {scope : Scope} {role : ActionRole} {state : EntryState}
    (h : a.entry? id scope role state = some e) : e.scope = scope ∧ e.state = state ∧ e.finalAwaited = false := by
  unfold ActionArgs.entry? at h
  split at h
  case h_1 =>
    split at h
    case isTrue =>
      split at h
      case isTrue => cases h
      case isFalse => cases h; exact ⟨rfl, rfl, rfl⟩
    case isFalse => cases h
  case h_2 => cases h

/-- A copy that is due to expire is HELD (R115). -/
theorem expires_held (h : s.expires id = true) : ∃ x, s.entry? id = some x ∧ x.state = .held := by
  unfold State.expires at h
  cases hx : s.entry? id with
  | none => rw [hx] at h; cases h
  | some x =>
    rw [hx] at h
    simp only [Bool.and_eq_true, beq_iff_eq] at h
    exact ⟨x, rfl, h.1⟩

/-- A proposal's copy is stored where its id has a HELD copy, or has none and the table has a free place (R137). -/
theorem memberPropose_stores {payload : List Byte}
    (hread : (decodeProposePayload payload).entry? ⟨n, payload.getD 0 0⟩ .shared .member .held = some e)
    (hmay : s.ctl.state = .synced ∧ (s.peer n).member = true
      ∧ (s.now < e.due - s.cfg.marginNs ∨ s.expires ⟨n, payload.getD 0 0⟩ = true))
    (hplace : (∃ x, s.entry? ⟨n, payload.getD 0 0⟩ = some x ∧ x.state = .held)
      ∨ s.entry? ⟨n, payload.getD 0 0⟩ = none ∧ s.table.entries.length < 32) :
    memberPropose n payload s = (storeCopy e s, true) := by
  rw [memberPropose_eq, hread, Option.elim_some, if_pos hmay]
  rcases hplace with ⟨x, hx, hheld⟩ | ⟨hnone, hroom⟩
  · rw [hx, Option.elim_some, if_neg (by simp [hheld]), if_pos (.inl hheld)]
  · rw [hnone, Option.elim_none, if_pos hroom]

/-- A copy that replaces no expiring one is stored, and no more (R137). -/
theorem storeCopy_unexpiring (h : s.expires e.id = false) : storeCopy e s = putEntry e s := by simp [storeCopy, h]

/-- A copy that replaces an expiring one takes over its deadline event (R149). -/
theorem storeCopy_expiring (h : s.expires e.id = true) :
    storeCopy e s = putEntry e { s with table.expiring := e.id :: s.table.expiring } := by simp [storeCopy, h]

theorem storeCopy_acked (e : Entry) (s : State) : (storeCopy e s).acked = storeCopy e s.acked := by
  rw [storeCopy, storeCopy, show s.acked.expires e.id = s.expires e.id from rfl]
  split <;> rfl

/-- Settles O34: the checks are those of `memberPropose_eq`; a copy that takes the place of an expiring one expires by
`deadlineEvent_held`. -/
theorem proposeMakesAHeldCopy : Obligations.ProposeMakesAHeldCopy := by
  intro s o f n haccepts hpart id read refused
  have ⟨_, hframe, _⟩ := haccepts
  have declined {t : State} (htake : memberPropose n f.payload (atAcceptance s) = (t, false)) :
      exec (.proposeAccepted o) s = .next (dropLatch t) := by
    rw [exec_proposeAccepted, proposeAccepted, acceptFrame_declined haccepts hpart htake]
  have hrefused (htake : memberPropose n f.payload (atAcceptance s) = (atAcceptance s, false)) : refused :=
    (declined htake).trans (by rw [dropLatch_atAcceptance hframe])
  refine ⟨fun hread => hrefused ?_, fun e hread => ?_⟩
  · rw [memberPropose_eq, show (decodeProposePayload f.payload).entry? _ .shared .member .held = none from hread, Option.elim_none]
  have hread' : (decodeProposePayload f.payload).entry? ⟨n, f.payload.getD 0 0⟩ .shared .member .held = some e := hread
  have hid : e.id = id := entry?_keeps_id hread
  have stored (hmay : s.ctl.state = .synced ∧ (s.peer n).member = true ∧ (s.now < e.due - s.cfg.marginNs ∨ s.expires id = true))
      (hplace : (∃ x, s.entry? id = some x ∧ x.state = .held) ∨ s.entry? id = none ∧ s.table.entries.length < 32) :
      exec (.proposeAccepted o) s = .next (storeCopy e (s.afterAcceptance f true)) := by
    rw [exec_proposeAccepted, proposeAccepted,
      acceptFrame_taken haccepts hpart (memberPropose_stores (s := atAcceptance s) hread' hmay hplace), storeCopy_acked,
      acked_atAcceptance hframe]
  have plain (hkept : s.expires id = false) :
      storeCopy e (s.afterAcceptance f true) =
        { s.afterAcceptance f true with table.entries := insertEntry e (dropEntry id s.table.entries) } := by
    rw [storeCopy_unexpiring (by rw [hid]; exact hkept), ← hid]
    rfl
  refine ⟨fun hunmet => hrefused ?_, fun hsynced hmember hexpires => ?_, fun hsynced hmember hahead hkept => ?_⟩
  · rw [memberPropose_eq, hread', Option.elim_some]
    exact if_neg hunmet
  · intro t
    have ht : storeCopy e (s.afterAcceptance f true) = t := by
      unfold t
      rw [storeCopy_expiring (by rw [hid]; exact hexpires), ← hid]
      rfl
    obtain ⟨hscope, hheld, hfinal⟩ := entry?_keeps_kind hread
    have hfound : t.entry? id = some e := by
      unfold t
      rw [← hid]
      exact putEntry_entry?_same e (s.afterAcceptance f true)
    have hdue : t.deadlineDue e = true := by simp [State.deadlineDue, hscope, hheld, hfinal, t, hid]
    refine ⟨?_, ?_⟩
    · rw [stored ⟨hsynced, hmember, .inr hexpires⟩ (.inl (expires_held hexpires)), ht]
    · have hentries : dropEntry id t.table.entries = dropEntry id s.table.entries := by
        unfold t
        rw [← hid, dropEntry_insertEntry, dropEntry_dropEntry]
      rw [exec_deadlineEvent, deadlineEvent_held hfound hdue hheld, hentries]
      rfl
  · have hmay : s.ctl.state = .synced ∧ (s.peer n).member = true ∧ (s.now < e.due - s.cfg.marginNs ∨ s.expires id = true) :=
      ⟨hsynced, hmember, .inl hahead⟩
    refine ⟨fun hnone hroom => ?_, fun hnone hfull => hrefused ?_, fun x hx => ⟨fun hheld => ?_, fun harmed => ?_⟩⟩
    · rw [stored hmay (.inr ⟨hnone, hroom⟩), plain hkept]
    · rw [memberPropose_eq, hread', Option.elim_some, if_pos (by exact hmay),
        show (atAcceptance s).entry? ⟨n, f.payload.getD 0 0⟩ = none from hnone, Option.elim_none]
      exact if_neg (Nat.not_lt.2 hfull)
    · rw [stored hmay (.inl ⟨x, hx, hheld⟩), plain hkept]
    · have hclash : memberPropose n f.payload (atAcceptance s) = (queueReport (.idClash id) (atAcceptance s), false) := by
        rw [memberPropose_eq, hread', Option.elim_some, if_pos (by exact hmay),
          show (atAcceptance s).entry? ⟨n, f.payload.getD 0 0⟩ = some x from hx, Option.elim_some, if_pos harmed]
      rw [declined hclash, ← dropLatch_atAcceptance hframe]
      rfl

end Sys2Proof.Machine
end

section
/-! PROOFS. Left notices over the whole table (O33), and the completed PROPOSE beside them (O28). -/

namespace Sys2Proof.Machine

variable {s t : State} {n : Station} {e x : Entry} {id : ActionId}

/-! ### Events at some of the entries -/

/-- Events at the entries that a test picks, one behind the other, where what an event leaves of its entry is a matter of the entry: the
picked ones are so left, and every other one stays (R112). -/
theorem foldl_filter_entry? {f : State → Entry → State} {left : Entry → Option Entry} (picked : Entry → Bool)
    (hf : ∀ (s : State) e, s.WorksAt e.id (f s e)) (hleft : ∀ (s : State) e, (f s e).entry? e.id = left e) (honce : s.idsOnce)
    (id : ActionId) :
    ((s.table.entries.filter picked).foldl f s).entry? id =
      (s.entry? id).bind fun e => if picked e then left e else some e := by
  have hes : ((s.table.entries.filter picked).map Entry.id).Nodup := List.Nodup.sublist (List.filter_sublist.map Entry.id) honce
  have hother (hno : id ∉ (s.table.entries.filter picked).map Entry.id) :
      ((s.table.entries.filter picked).foldl f s).entry? id = s.entry? id := foldl_entry?_other hf hno s
  cases hx : s.entry? id with
  | none =>
    refine (hother fun hmem => ?_).trans hx
    obtain ⟨e, he, rfl⟩ := List.mem_map.1 hmem
    simp [entry?_of_mem honce (List.mem_of_mem_filter he)] at hx
  | some x =>
    obtain rfl := entry?_id hx
    rw [Option.bind_some]
    by_cases hpick : picked x = true
    · obtain ⟨u, _, _, hu⟩ := foldl_entry?_at hf hes (List.mem_filter.2 ⟨entry?_mem hx, hpick⟩) s
      rw [if_pos hpick, hu, hleft]
    · refine ((hother fun hmem => hpick ?_).trans hx).trans (if_neg hpick).symm
      obtain ⟨e, he, hid⟩ := List.mem_map.1 hmem
      obtain ⟨he, hpicked⟩ := List.mem_filter.1 he
      rwa [eq_of_id honce he (entry?_mem hx) hid] at hpicked

/-- Events at entries, one behind the other: what the event at one of them brings about and the events at the others keep holds behind
them all. -/
theorem foldl_brings {f : State → Entry → State} {before after : State → Prop} {es : List Entry} (he : e ∈ es)
    (honce : (es.map Entry.id).Nodup) (hbefore : ∀ (s : State) x, before s → before (f s x))
    (hbrings : ∀ s : State, before s → after (f s e)) (hkeeps : ∀ (s : State) x, x.id ≠ e.id → after s → after (f s x))
    (h : before s) :
    after (es.foldl f s) := by
  induction es generalizing s with
  | nil => cases he
  | cons a rest ih =>
    obtain ⟨ha, hrest⟩ := List.nodup_cons.1 honce
    rcases List.mem_cons.1 he with rfl | he
    · exact List.foldlRecOn rest f (hbrings s h) fun t ht x hx => hkeeps t x (fun hid => ha (hid ▸ List.mem_map_of_mem hx)) ht
    · exact ih he hrest (hbefore s a h)

/-! ### One entry -/

/-- The entry as a COMMITTING one (R132, R133). -/
def Entry.asCommitting (e : Entry) : Entry := { e with state := .committing, tries := some 0, acked := some 0, marks := none }

/-- The entry that a left notice makes of one that it prunes (R133, R149). -/
def Entry.pruned (n : Station) (e : Entry) : Entry :=
  if e.commitsByNotice = true ∧ (e.without n).missing = 0 then (e.without n).asCommitting else e.without n

theorem becomeCommitting_eq (e : Entry) (s : State) :
    becomeCommitting e s = raiseFor .commit e.asCommitting (putEntry e.asCommitting s) :=
  rfl

theorem pruneEntry_commits (hcommits : e.commitsByNotice = true) (hcovered : (e.without n).missing = 0) (s : State) :
    pruneEntry n e s = becomeCommitting (e.without n) s := by
  rcases pruneEntry_cases n e s with ⟨_, _, h⟩ | ⟨hnot, _⟩
  · exact h
  · exact absurd ⟨hcommits, covered_iff.2 hcovered⟩ hnot

theorem pruneEntry_keeps (hkeeps : ¬(e.commitsByNotice = true ∧ (e.without n).missing = 0)) (s : State) :
    pruneEntry n e s = putEntry (e.without n) s := by
  rcases pruneEntry_cases n e s with ⟨hcommits, hcovered, _⟩ | ⟨_, h⟩
  · exact absurd ⟨hcommits, covered_iff.1 hcovered⟩ hkeeps
  · exact h

theorem pruned_completed (h : e.commitsByNotice = true ∧ (e.without n).missing = 0) : e.pruned n = (e.without n).asCommitting :=
  if_pos h

theorem pruned_uncompleted (h : ¬(e.commitsByNotice = true ∧ (e.without n).missing = 0)) : e.pruned n = e.without n := if_neg h

theorem pruned_id (n : Station) (e : Entry) : (e.pruned n).id = e.id := by
  unfold Entry.pruned
  split <;> rfl

theorem pruneEntry_entries (n : Station) (e : Entry) (s : State) :
    (pruneEntry n e s).table.entries = insertEntry (e.pruned n) (dropEntry e.id s.table.entries) := by
  by_cases h : e.commitsByNotice = true ∧ (e.without n).missing = 0
  · rw [pruneEntry_commits h.1 h.2, becomeCommitting_eq, pruned_completed h]
    obtain ⟨_, _, hraise⟩ := raiseNeed_frame .commit (.entry e.id) (putEntry (e.without n).asCommitting s)
    exact congrArg (fun t : State => t.table.entries) hraise
  · rw [pruneEntry_keeps h, pruned_uncompleted h]
    rfl

theorem pruneEntry_entry? (n : Station) (s : State) (e : Entry) : (pruneEntry n e s).entry? e.id = some (e.pruned n) := by
  rw [State.entry?, pruneEntry_entries, ← pruned_id n e]
  exact find?_insertEntry_same fun _ hx => (mem_dropEntry.1 hx).2

/-! ### The HELD copies -/

/-- A HELD copy of the station's (R141). -/
def Entry.heldOf (n : Station) (e : Entry) : Bool := e.state == .held && e.id.owner == n

theorem heldOf_iff : e.heldOf n = true ↔ e.state = .held ∧ e.id.owner = n := by simp [Entry.heldOf]

/-- The purge written out (R141). -/
theorem dropHeld_eq (es : List Entry) (s : State) :
    dropHeld es s =
      { s with
        table.entries := s.table.entries.filter fun e => !es.any fun x => x.id == e.id
        engine.needs := s.engine.needs.filter fun k => !es.any fun x => k.source == .entry x.id
        reports.records :=
          es.foldl (fun q e => joinQueue 32 Report.lose ⟨.heldDropped e.id, s.now, s.ctl.state, 0⟩ q) s.reports.records } := by
  induction es generalizing s with
  | nil => simp [dropHeld]
  | cons a rest ih =>
    have hcons : dropHeld (a :: rest) s = dropHeld rest (queueReport (.heldDropped a.id) (removeEntry a.id s)) := rfl
    rw [hcons, ih]
    simp [dropEntry, List.filter_filter, Bool.and_comm, bne, BEq.comm (a := a.id)]

/-! ### The table behind a left notice -/

/-- The pruning of an entry changes the due list and the needs alone (R133). -/
theorem pruneEntry_frame (n : Station) (e : Entry) (s : State) :
    ∃ entries needs age,
      pruneEntry n e s = { s with table.entries := entries, engine.needs := needs, engine.nextAge := age } := by
  rcases pruneEntry_cases n e s with ⟨_, _, h⟩ | ⟨_, h⟩ <;> rw [h]
  · obtain ⟨needs, age, hraise⟩ := raiseNeed_frame .commit (.entry e.id) (putEntry (e.without n).asCommitting s)
    exact ⟨_, needs, age, hraise⟩
  · exact ⟨_, _, _, rfl⟩

theorem pruneRequired_frame (n : Station) (s : State) :
    ∃ entries needs age,
      pruneRequired n s = { s with table.entries := entries, engine.needs := needs, engine.nextAge := age } := by
  refine List.foldlRecOn
    (motive := fun t : State => ∃ entries needs age,
      t = { s with table.entries := entries, engine.needs := needs, engine.nextAge := age })
    _ _ ⟨s.table.entries, s.engine.needs, s.engine.nextAge, rfl⟩ fun t ht e _ => ?_
  obtain ⟨_, _, _, rfl⟩ := ht
  obtain ⟨entries, needs, age, h⟩ := pruneEntry_frame n e _
  exact ⟨entries, needs, age, h⟩

theorem filter_insertEntry_of_not {p : Entry → Bool} (h : p e = false) (entries : List Entry) :
    (insertEntry e entries).filter p = entries.filter p := by
  induction entries with
  | nil => simp [insertEntry, h]
  | cons a rest ih =>
    rw [insertEntry]
    split
    · rw [List.filter_cons_of_neg (by simp [h])]
    · rw [List.filter_cons, List.filter_cons, ih]

theorem filter_dropEntry_of_not {p : Entry → Bool} {entries : List Entry} (h : ∀ x ∈ entries, p x = true → x.id ≠ id) :
    (dropEntry id entries).filter p = entries.filter p := by
  rw [dropEntry, List.filter_filter]
  refine List.filter_congr fun x hx => ?_
  cases hp : p x with
  | false => rfl
  | true => simpa using h x hx hp

/-- Own entries that a left notice prunes are not HELD. -/
theorem pruned_not_heldOf {m : Station} (h : s.prunes e = true) : e.heldOf m = false ∧ (e.pruned n).heldOf m = false := by
  obtain ⟨_, _, hstate⟩ := prunes_iff.1 h
  have hheld : e.state ≠ .held := by rcases hstate with h | ⟨_, h | h⟩ <;> simp [h]
  refine ⟨by simp [Entry.heldOf, hheld], ?_⟩
  unfold Entry.pruned
  split
  · simp [Entry.heldOf, Entry.asCommitting]
  · simp [Entry.heldOf, hheld]

/-- The pruning passes the HELD copies by (R133, R141). -/
theorem pruneRequired_heldOf (n m : Station) (honce : s.idsOnce) :
    (pruneRequired n s).table.entries.filter (Entry.heldOf m) = s.table.entries.filter (Entry.heldOf m) := by
  refine List.foldlRecOn (motive := fun t : State => t.table.entries.filter (Entry.heldOf m) = s.table.entries.filter (Entry.heldOf m))
    _ _ rfl fun t ht e he => ?_
  obtain ⟨hmem, hprunes⟩ := List.mem_filter.1 he
  obtain ⟨hheld, hheld'⟩ := pruned_not_heldOf (n := n) (m := m) hprunes
  rw [pruneEntry_entries, filter_insertEntry_of_not hheld', filter_dropEntry_of_not, ht]
  intro x hx hpx hid
  have hxs : x ∈ s.table.entries := List.mem_of_mem_filter (ht ▸ List.mem_filter.2 ⟨hx, hpx⟩)
  rw [eq_of_id honce hxs hmem hid, hheld] at hpx
  cases hpx

theorem leftNotice_eq (n : Station) (s : State) :
    leftNotice n s = dropHeld ((pruneRequired n s).table.entries.filter (Entry.heldOf n)) (pruneRequired n s) := rfl

/-- The reports of a left notice: HELD_DROPPED for each of the station's HELD copies, in due list order (R141). -/
theorem leftNotice_records (n : Station) (honce : s.idsOnce) :
    (leftNotice n s).reports.records =
      (s.table.entries.filter (Entry.heldOf n)).foldl
        (fun q e => joinQueue 32 Report.lose ⟨.heldDropped e.id, s.now, s.ctl.state, 0⟩ q) s.reports.records := by
  rw [leftNotice_eq, pruneRequired_heldOf n n honce, dropHeld_eq]
  obtain ⟨_, _, _, h⟩ := pruneRequired_frame n s
  rw [h]
  rfl

theorem pruneRequired_entry? (n : Station) (honce : s.idsOnce) (id : ActionId) :
    (pruneRequired n s).entry? id = (s.entry? id).bind fun e => if s.prunes e then some (e.pruned n) else some e :=
  foldl_filter_entry? s.prunes (fun s e => pruneEntry_worksAt n e s) (fun s e => pruneEntry_entry? n s e) honce id

theorem pruneRequired_idsOnce (n : Station) (honce : s.idsOnce) : (pruneRequired n s).idsOnce :=
  foldl_idsOnce (fun s e => pruneEntry_worksAt n e s) _ honce

/-- What a left notice leaves at each id: an own proposal pruned, no HELD copy of the station's, and every other entry (R133, R141). -/
theorem leftNotice_entry? (n : Station) (honce : s.idsOnce) (id : ActionId) :
    (leftNotice n s).entry? id =
      (s.entry? id).bind fun e => if s.prunes e then some (e.pruned n) else if e.heldOf n then none else some e := by
  have hpurged : (leftNotice n s).entry? id =
      ((pruneRequired n s).entry? id).bind fun e => if e.heldOf n then none else some e :=
    foldl_filter_entry? (Entry.heldOf n) (fun s e => dropHeld_worksAt e s) (fun s e => removeEntry_entry?_same e.id s)
      (pruneRequired_idsOnce n honce) id
  rw [hpurged, pruneRequired_entry? n honce]
  cases s.entry? id with
  | none => rfl
  | some e =>
    simp only [Option.bind_some]
    by_cases hprunes : s.prunes e = true
    · simp only [if_pos hprunes, Option.bind_some, pruned_not_heldOf (n := n) (m := n) hprunes]
      rfl
    · simp only [if_neg hprunes, Option.bind_some]

/-! ### The COMMIT need of a completed set -/

theorem needHeld_iff {needs : List Need} {kind : FrameKind} {source : NeedSource} :
    needHeld needs kind source = true ↔ ∃ need ∈ needs, need.kind = kind ∧ need.source = source := by
  simp [needHeld]

theorem needHeld_filter {needs : List Need} {kind : FrameKind} {source : NeedSource} {p : Need → Bool}
    (hkeeps : ∀ need, need.source = source → p need = true) (h : needHeld needs kind source = true) :
    needHeld (needs.filter p) kind source = true := by
  obtain ⟨need, hmem, hkind, hsource⟩ := needHeld_iff.1 h
  exact needHeld_iff.2 ⟨need, List.mem_filter.2 ⟨hmem, hkeeps need hsource⟩, hkind, hsource⟩

/-- A need stays while another source raises one (R22). -/
theorem needHeld_raiseFor_other {kind other : FrameKind} (hne : x.id ≠ id) (h : needHeld s.engine.needs kind (.entry id) = true) :
    needHeld (raiseFor other x s).engine.needs kind (.entry id) = true := by
  cases hdiscards : discardsNeed s.ctl.state other with
  | true => rwa [raiseFor, raiseNeed_discarded hdiscards]
  | false =>
    rw [raiseFor, raiseNeed_taken hdiscards]
    have hstays := needHeld_filter (p := fun n => n.source != .entry x.id)
      (fun need hsource => by simpa [hsource] using hne.symm) h
    obtain ⟨need, hmem, hneed⟩ := needHeld_iff.1 hstays
    exact needHeld_iff.2 ⟨need, List.mem_append_left _ hmem, hneed⟩

theorem pruneEntry_raises (hcommits : e.commitsByNotice = true) (hcovered : (e.without n).missing = 0)
    (hpart : s.ctl.state.takesPart = true) : needHeld (pruneEntry n e s).engine.needs .commit (.entry e.id) = true := by
  rw [pruneEntry_commits hcommits hcovered, becomeCommitting_eq, raiseFor_putEntry _ _ hpart]
  exact needHeld_iff.2 ⟨⟨.commit, .entry e.id, s.engine.nextAge⟩, List.mem_append_right _ (List.mem_singleton_self _), rfl, rfl⟩

theorem pruneEntry_keepsNeed {kind : FrameKind} (hne : x.id ≠ id) (h : needHeld s.engine.needs kind (.entry id) = true) :
    needHeld (pruneEntry n x s).engine.needs kind (.entry id) = true := by
  rcases pruneEntry_cases n x s with ⟨_, _, hprune⟩ | ⟨_, hprune⟩ <;> rw [hprune]
  · exact needHeld_raiseFor_other (s := putEntry (x.without n).asCommitting s) (x := (x.without n).asCommitting) hne h
  · exact h

/-- A proposal whose set a left notice completes holds its COMMIT need behind the notice (R133). -/
theorem leftNotice_raises (honce : s.idsOnce) (he : e ∈ s.table.entries) (hprunes : s.prunes e = true)
    (hcommits : e.commitsByNotice = true) (hcovered : (e.without n).missing = 0) (hpart : s.ctl.state.takesPart = true) :
    needHeld (leftNotice n s).engine.needs .commit (.entry e.id) = true := by
  have hraised : needHeld (pruneRequired n s).engine.needs .commit (.entry e.id) = true :=
    foldl_brings (before := fun t => t.ctl.state.takesPart = true)
      (after := fun t => needHeld t.engine.needs .commit (.entry e.id) = true) (List.mem_filter.2 ⟨he, hprunes⟩)
      (List.Nodup.sublist (List.filter_sublist.map Entry.id) honce)
      (fun t x ht => by obtain ⟨_, _, _, h⟩ := pruneEntry_frame n x t; rw [h]; exact ht)
      (fun t ht => pruneEntry_raises hcommits hcovered ht) (fun t x hne ht => pruneEntry_keepsNeed hne ht) hpart
  rw [leftNotice_eq, pruneRequired_heldOf n n honce, dropHeld_eq]
  refine needHeld_filter (fun need hsource => ?_) hraised
  rw [Bool.not_eq_true', List.any_eq_false, hsource]
  intro x hx hid
  obtain ⟨hx, hheld⟩ := List.mem_filter.1 hx
  have hsame : e = x := eq_of_id honce he hx (NeedSource.entry.inj (beq_iff_eq.1 hid))
  rw [← hsame, (pruned_not_heldOf (n := n) hprunes).1] at hheld
  cases hheld

/-- Settles O33: the table by `leftNotice_entry?`, its reports by `leftNotice_records`, its needs by `leftNotice_raises`; the purge by
`dropHeld_eq`, and one pruning by `pruneEntry_commits` and `pruneEntry_keeps`. -/
theorem leftNoticePrunesAndPurges : Obligations.LeftNoticePrunesAndPurges := by
  refine ⟨fun s n honce => ?_, fun s n hnone => ?_, fun s n => leftNotice_unconcerned, fun s n e hpart => ?_⟩
  · intro t
    refine ⟨leftNotice_records n honce, fun e he => ?_⟩
    intro proposed moved required acked
    have hentry : t.entry? e.id = if s.prunes e then some (e.pruned n) else if e.heldOf n then none else some e := by
      rw [leftNotice_entry? n honce, entry?_of_mem honce he, Option.bind_some]
    have hprunes : s.prunes e = true ↔ proposed ∨ moved := by
      rw [prunes_iff]
      tauto
    have committed (h : s.prunes e = true) (hcommits : e.commitsByNotice = true) (hcovered : required &&& ~~~acked = 0) :
        t.entry? e.id =
            some { e with required := some required, acked := some 0, tries := some 0, marks := none, state := .committing }
          ∧ (s.ctl.state.takesPart = true → needHeld t.engine.needs .commit (.entry e.id) = true) := by
      refine ⟨?_, leftNotice_raises honce he h hcommits hcovered⟩
      rw [hentry, if_pos h, pruned_completed ⟨hcommits, hcovered⟩]
      rfl
    have kept (h : s.prunes e = true) (hkeeps : ¬(e.commitsByNotice = true ∧ required &&& ~~~acked = 0)) :
        t.entry? e.id = some { e with required := some required, acked := some acked } := by
      rw [hentry, if_pos h, pruned_uncompleted hkeeps]
      rfl
    refine ⟨fun hproposed htries hcovered => ?_, fun hproposed hleft => ?_, fun hmoved hstate hmarks hcovered => ?_,
      fun hmoved hleft => ?_, fun hheld howner => ?_, fun hproposed hmoved hheld => ?_⟩
    · exact committed (hprunes.2 (.inl hproposed)) (commitsByNotice_iff.2 (.inl ⟨hproposed.2.2, htries⟩)) hcovered
    · refine kept (hprunes.2 (.inl hproposed)) ?_
      rw [commitsByNotice_iff, hproposed.2.2]
      rintro ⟨⟨_, htries⟩ | ⟨hstate, _⟩, hcovered⟩
      · exact hleft.elim (by omega) fun hne => hne hcovered
      · cases hstate
    · exact committed (hprunes.2 (.inr hmoved)) (commitsByNotice_iff.2 (.inr ⟨hstate, hmarks⟩)) hcovered
    · refine kept (hprunes.2 (.inr hmoved)) ?_
      obtain ⟨_, _, hstate, _⟩ := hmoved
      rw [commitsByNotice_iff]
      rintro ⟨⟨hpending, _⟩ | ⟨hcancelling, hmarks⟩, hcovered⟩
      · rcases hstate with h | h <;> rw [h] at hpending <;> cases hpending
      · exact hleft ⟨hcancelling, hmarks, hcovered⟩
    · have hspared : ¬s.prunes e = true := fun h => by
        have hnot := (pruned_not_heldOf (n := n) (m := n) h).1
        rw [heldOf_iff.2 ⟨hheld, howner⟩] at hnot
        cases hnot
      rw [hentry, if_neg hspared, if_pos (heldOf_iff.2 ⟨hheld, howner⟩)]
    · rw [hentry, if_neg (hprunes.not.2 (not_or.2 ⟨hproposed, hmoved⟩)), if_neg (heldOf_iff.not.2 hheld)]
  · intro gone
    have hspared : pruneRequired n s = s := by
      rw [pruneRequired, List.filter_eq_nil_iff.2 fun e he => by simp [hnone e he]]
      rfl
    rw [leftNotice_eq, hspared, dropHeld_eq]
    rfl
  · intro required acked others commits
    refine ⟨fun hcommits hcovered => ?_, fun hkeeps => ?_⟩
    · rw [pruneEntry_commits (commitsByNotice_iff.2 hcommits) hcovered, becomeCommitting_eq, raiseFor_putEntry _ _ hpart]
      rfl
    · rw [pruneEntry_keeps]
      · rfl
      · rintro ⟨hcommits, hcovered⟩
        exact hkeeps.elim (fun hnot => hnot (commitsByNotice_iff.1 hcommits)) fun hne => hne hcovered

/-! ### The completed PROPOSE -/

/-- The entry as a CANCELLING one behind its third try (R132). -/
def Entry.triesFailed (e : Entry) : Entry := { e with state := .cancelling, tries := some 0, marks := some ⟨.tries, false⟩ }

/-- What a completed PROPOSE makes of a PENDING entry: COMMITTING, one try more, or CANCELLING behind the third (R132). -/
def Entry.decided (acks : StationSet) (e : Entry) : Entry :=
  if (e.withTry acks).missing = 0 then (e.withTry acks).asCommitting
  else if e.tries.getD 0 + 1 < 3 then e.withTry acks
  else (e.withTry acks).triesFailed

variable {acks : StationSet} {held : Bool}

/-- A completed PROPOSE of a PENDING entry, with the need of what it decides, and the report of a third try (R132). -/
theorem entryCompleted_propose (he : s.entry? e.id = some e) (hpending : e.state = .pending) :
    let tried := e.withTry acks
    let marked := markProposed e.id s
    entryCompleted .propose e.id acks held s =
      if tried.missing = 0 then raiseFor .commit tried.asCommitting (putEntry tried.asCommitting marked)
      else if e.tries.getD 0 + 1 < 3 then raiseFor .propose tried (putEntry tried marked)
      else
        raiseFor .cancel tried.triesFailed
          (putEntry tried.triesFailed (queueReport (.proposalFailed e.id tried.missing .tries) marked)) := by
  intro tried marked
  simp only [entryCompleted, he, hpending, proposeCompleted, proposeOutcome, covered_iff]
  rfl

theorem raiseFor_table (kind : FrameKind) (e : Entry) (s : State) : (raiseFor kind e s).table = s.table := by
  obtain ⟨_, _, h⟩ := raiseNeed_frame kind (.entry e.id) s
  rw [raiseFor, h]

/-- The table behind a completed PROPOSE: the entry as decided, among those that have taken one in the period (R132, R149). -/
theorem entryCompleted_propose_table (he : s.entry? e.id = some e) (hpending : e.state = .pending) :
    (entryCompleted .propose e.id acks held s).table = (putEntry (e.decided acks) (markProposed e.id s)).table := by
  rw [entryCompleted_propose he hpending, Entry.decided]
  split
  · exact raiseFor_table ..
  · split <;> exact raiseFor_table ..

/-! ### The completed PROPOSE and a left notice, in either order -/

/-- A station that leaves before the acks join is as one that leaves behind them (R132, R133). -/
theorem without_withTry (n : Station) (acks : StationSet) (e : Entry) : (e.withTry acks).without n = (e.without n).withTry acks := by
  have hacked : setLess (e.acks ||| (acks &&& e.req)) (single n) =
      setLess e.acks (single n) ||| (acks &&& setLess e.req (single n)) := by
    unfold setLess
    ext i hi
    simp only [BitVec.getElem_and, BitVec.getElem_or, BitVec.getElem_not]
    grind
  exact congrArg (fun acked => { e.without n with tries := some (e.tries.getD 0 + 1), acked := some acked }) hacked

/-- A set that is covered stays so without a station. -/
theorem without_missing (n : Station) (h : e.missing = 0) : (e.without n).missing = 0 := within_less (single n) h

/-- A set that is covered stays so behind more acks. -/
theorem withTry_missing (acks : StationSet) (h : e.missing = 0) : (e.withTry acks).missing = 0 := by
  have hbits := within_iff_bits.1 h
  exact within_iff_bits.2 fun i hi => (BitVec.getLsbD_or ..).trans (by rw [hbits i hi, Bool.true_or])

theorem without_asCommitting (n : Station) (e : Entry) : e.asCommitting.without n = (e.without n).asCommitting := by
  have hacked : setLess 0 (single n) = 0 := by simp [setLess]
  exact congrArg (fun acked => { (e.without n).asCommitting with acked := some acked }) hacked

/-- What a left notice makes of a decided proposal is what a completed PROPOSE decides without the station (R149). -/
theorem decided_pruned (hpending : e.state = .pending) : (e.decided acks).pruned n = (e.without n).decided acks := by
  have hswap := without_withTry n acks e
  by_cases hcovered : (e.withTry acks).missing = 0
  · have hnot : ¬((e.withTry acks).asCommitting.commitsByNotice = true
        ∧ ((e.withTry acks).asCommitting.without n).missing = 0) := by
      simp [commitsByNotice_iff, Entry.asCommitting]
    rw [Entry.decided, if_pos hcovered, pruned_uncompleted hnot, without_asCommitting, hswap, Entry.decided,
      if_pos (hswap ▸ without_missing n hcovered)]
  · have prunes {d : Entry} (hcommits : d.commitsByNotice = true) :
        d.pruned n = if (d.without n).missing = 0 then (d.without n).asCommitting else d.without n := by
      simp only [Entry.pruned, hcommits, true_and]
    rw [Entry.decided, if_neg hcovered, Entry.decided, ← hswap, without_tries]
    by_cases htries : e.tries.getD 0 + 1 < 3
    · rw [if_pos htries, if_pos htries, prunes (d := e.withTry acks) (commitsByNotice_iff.2 (.inl ⟨hpending, Nat.le_add_left 1 _⟩))]
    · rw [if_neg htries, if_neg htries, prunes (commitsByNotice_iff.2 (.inr ⟨rfl, rfl⟩))]
      rfl

/-- A proposal that a left notice completes is as a completed PROPOSE behind the notice would leave it (R133, R149). -/
theorem decided_completed (h : (e.without n).missing = 0) : (e.without n).decided acks = (e.without n).asCommitting :=
  if_pos (withTry_missing acks h)

theorem decided_keeps (acks : StationSet) (e : Entry) :
    (e.decided acks).id = e.id ∧ (e.decided acks).scope = e.scope ∧ (e.decided acks).role = e.role
      ∧ (e.decided acks).required = e.required := by
  unfold Entry.decided
  split
  · exact ⟨rfl, rfl, rfl, rfl⟩
  · split <;> exact ⟨rfl, rfl, rfl, rfl⟩

theorem decided_state (hpending : e.state = .pending) :
    (e.decided acks).state = .pending ∨ (e.decided acks).state = .committing ∨ (e.decided acks).state = .cancelling := by
  unfold Entry.decided
  split
  · exact .inr (.inl rfl)
  · split
    · exact .inl hpending
    · exact .inr (.inr rfl)

/-- A proposal that is not covered keeps the acks (R132). -/
theorem decided_acked (h : (e.withTry acks).missing ≠ 0) : (e.decided acks).acked = (e.withTry acks).acked := by
  rw [Entry.decided, if_neg h]
  split <;> rfl

/-- The stations that a try leaves missing are those that neither had acked nor ack now (R132). -/
theorem withTry_missing_eq (n : Station) (acks : StationSet) (e : Entry) :
    ((e.without n).withTry acks).missing = setLess e.req (single n) &&& ~~~(e.acks ||| acks) := by
  have hsets : setLess (setLess e.req (single n))
      (setLess e.acks (single n) ||| (acks &&& setLess e.req (single n))) = setLess e.req (single n) &&& ~~~(e.acks ||| acks) := by
    unfold setLess
    ext i hi
    simp only [BitVec.getElem_and, BitVec.getElem_or, BitVec.getElem_not]
    grind
  exact hsets

/-- The completed PROPOSE first: the notice behind it prunes what it has decided (R149). -/
theorem leftNotice_entryCompleted (n : Station) (honce : s.idsOnce) (he : s.entry? e.id = some e) (hpending : e.state = .pending)
    (hscope : e.scope = .shared) (hrole : e.role = .owner) :
    (leftNotice n (entryCompleted .propose e.id acks held s)).entry? e.id = some ((e.without n).decided acks) := by
  have htable := entryCompleted_propose_table (acks := acks) (held := held) he hpending
  obtain ⟨hid, hscope', hrole', _⟩ := decided_keeps acks e
  have hfound : (entryCompleted .propose e.id acks held s).entry? e.id = some (e.decided acks) := by
    rw [State.entry?, htable, ← hid]
    exact putEntry_entry?_same ..
  have honce' : (entryCompleted .propose e.id acks held s).idsOnce := by
    rw [State.idsOnce, htable]
    exact putEntry_idsOnce (s := markProposed e.id s) _ honce
  have hproposed : (e.decided acks).id ∈ (entryCompleted .propose e.id acks held s).table.proposedNow := by
    rw [htable, hid]
    exact List.mem_cons_self
  have hprunes : (entryCompleted .propose e.id acks held s).prunes (e.decided acks) = true :=
    prunes_iff.2 ⟨hscope'.trans hscope, hrole'.trans hrole, (decided_state hpending).imp_right fun h => ⟨hproposed, h⟩⟩
  rw [leftNotice_entry? n honce', hfound, Option.bind_some, if_pos hprunes, decided_pruned hpending]

/-- The notice first: the completed PROPOSE decides what the notice has left PENDING, and passes by what it has completed (R149). -/
theorem entryCompleted_leftNotice (n : Station) (honce : s.idsOnce) (he : s.entry? e.id = some e) (hpending : e.state = .pending)
    (hscope : e.scope = .shared) (hrole : e.role = .owner) :
    (entryCompleted .propose e.id acks held (leftNotice n s)).entry? e.id = some ((e.without n).decided acks) := by
  have hprunes : s.prunes e = true := prunes_iff.2 ⟨hscope, hrole, .inl hpending⟩
  have hleft : (leftNotice n s).entry? e.id = some (e.pruned n) := by
    rw [leftNotice_entry? n honce, he, Option.bind_some, if_pos hprunes]
  by_cases hcommits : e.commitsByNotice = true ∧ (e.without n).missing = 0
  · rw [pruned_completed hcommits] at hleft
    rw [decided_completed hcommits.2, ← hleft]
    simp only [entryCompleted, hleft, Entry.asCommitting]
  · rw [pruned_uncompleted hcommits] at hleft
    have htable := entryCompleted_propose_table (e := e.without n) (acks := acks) (held := held) hleft hpending
    obtain ⟨hid, _⟩ := decided_keeps acks (e.without n)
    rw [without_id] at htable hid
    rw [State.entry?, htable, ← hid]
    exact putEntry_entry?_same ..

/-- Settles O28: behind either order stands what the completed PROPOSE decides without the station (`leftNotice_entryCompleted`,
`entryCompleted_leftNotice`), and the completed PROPOSE by itself is `entryCompleted_propose`. -/
theorem completedProposeDecidesTheProposal : Obligations.CompletedProposeDecidesTheProposal := by
  refine ⟨fun s e acks held n he hpending hscope hrole honce => ?_, fun s e acks held he hpending hpart => ?_⟩
  · intro outcomeFirst noticeFirst required missing
    have houtcome : outcomeFirst = some ((e.without n).decided acks) := leftNotice_entryCompleted n honce he hpending hscope hrole
    have hnotice : noticeFirst = some ((e.without n).decided acks) := entryCompleted_leftNotice n honce he hpending hscope hrole
    obtain ⟨_, _, _, hrequired⟩ := decided_keeps acks (e.without n)
    have hmissing : ((e.without n).withTry acks).missing = missing := withTry_missing_eq n acks e
    refine ⟨houtcome.trans hnotice.symm, _, houtcome, hrequired, fun hcovered => ?_, fun hleft => ?_⟩
    · rw [Entry.decided, if_pos (hmissing.trans hcovered)]
      exact ⟨rfl, rfl⟩
    · rw [decided_acked (hmissing ▸ hleft), ← without_withTry]
      rfl
  · intro acked tries missing others needs
    have hmissing : (e.withTry acks).missing = missing := rfl
    rw [entryCompleted_propose he hpending, hmissing]
    refine ⟨fun hcovered => ?_, fun hleft htries => ?_, fun hleft htries => ?_⟩
    · rw [if_pos hcovered]
      exact raiseFor_putEntry (s := markProposed e.id s) .commit (e.withTry acks).asCommitting hpart
    · rw [if_neg hleft, if_pos htries]
      exact raiseFor_putEntry (s := markProposed e.id s) .propose (e.withTry acks) hpart
    · rw [if_neg hleft, if_neg (Nat.not_lt.2 htries)]
      exact raiseFor_putEntry (s := queueReport _ (markProposed e.id s)) .cancel (e.withTry acks).triesFailed hpart

end Sys2Proof.Machine
end

section
/-! PROOFS. PROPOSE (O14) and CANCEL (O15) of the host. -/

namespace Sys2Proof.Machine

variable {s : State} {a : ActionArgs} {filler : List Byte} {e : Entry} {owner seq : Byte}

/-! ### PROPOSE -/

/-- A whole PROPOSE: the station's state, the fields, the due and the table's places, in this order (R130). -/
theorem commandPropose_eq (houtput : a.output < 256) (hedge : a.edge < 256) (hmode : a.mode < 256) (h : s.holds 0x20 a.bytes filler) :
    commandPropose s =
      if s.ctl.state ≠ .synced then s.answered .notSynced []
      else
        (a.entry? s.nextId .shared .owner .pending).elim (s.answered .badArg []) fun e =>
          if e.due < s.now + s.cfg.marginNs + s.cfg.marginNs then s.answered .tooSoon []
          else if 32 ≤ s.table.entries.length then s.answered .tableFull []
          else proposeTaken e (clearEnded s) := by
  have hnext : (clearEnded s).nextId = s.nextId := rfl
  refine (takeCommand_holds h (actionBytes_length a) ownPropose).trans ?_
  rw [ownPropose, decodeActionArgs_bytes a houtput hedge hmode, hnext]
  refine if_congr Iff.rfl rfl ?_
  cases a.entry? s.nextId .shared .owner .pending with
  | none => rfl
  | some e =>
    have hearly : e.due < (clearEnded s).now + (clearEnded s).cfg.marginNs + (clearEnded s).cfg.marginNs ↔
        e.due < s.now + s.cfg.marginNs + s.cfg.marginNs := by rw [clearEnded_now, clearEnded_cfg]
    rw [Option.elim_some]
    exact if_congr hearly rfl (if_congr Iff.rfl rfl rfl)

/-- A taken PROPOSE puts its entry in its place among the others, raises its need, and answers the id (R22, R110, R114, R130). -/
theorem proposeTaken_eq (hid : e.id = s.nextId) (hsynced : s.ctl.state = .synced) (hroom : s.table.entries.length < 32) :
    proposeTaken e (clearEnded s) =
      { s.answered .ok [BitVec.ofNat 8 s.own.val, s.nextSeq] with
        ctl.seq := s.nextSeq + 1
        table.entries := insertEntry { e with required := some s.members, acked := some 0, tries := some 0 } s.table.entries
        engine.needs :=
          s.engine.needs.filter (fun n => n.source != .entry s.nextId) ++ [⟨.propose, .entry s.nextId, s.engine.nextAge⟩]
        engine.nextAge := s.engine.nextAge + 1 } := by
  have hpart : (drawSeq (clearEnded s)).ctl.state.takesPart = true := congrArg StationState.takesPart hsynced
  have hentries : insertEntry { e with required := some s.members, acked := some 0, tries := some 0 } (dropEntry e.id s.table.entries) =
      insertEntry { e with required := some s.members, acked := some 0, tries := some 0 } s.table.entries := by
    rw [hid, dropEntry_nextId hroom]
  have hanswer : idBytes e.id = [BitVec.ofNat 8 s.own.val, s.nextSeq] := by
    rw [hid]
    rfl
  have hraised := raiseFor_putEntry (s := drawSeq (clearEnded s)) .propose
    { e with required := some s.members, acked := some 0, tries := some 0 } hpart
  rw [← hentries, ← hanswer, ← hid]
  exact congrArg (replyId e.id) hraised

/-- Settles O14: the checks are those of `commandPropose_eq`, and `proposeTaken_eq` writes the taken one out. -/
theorem proposeMakesAPendingEntry : Obligations.ProposeMakesAPendingEntry := by
  intro s a filler houtput hedge hmode h early
  rw [exec_propose, commandPropose_eq houtput hedge hmode h]
  refine ⟨fun hout => ?_, fun hsynced hfail => ?_, fun hsynced hpass => ?_, fun hsynced hpass => ?_,
    fun hsynced hpass hdue hroom => ?_⟩
  · rw [if_pos hout]
  · rw [if_neg (not_not.2 hsynced), entry?_eq_none hfail, Option.elim_none]
  all_goals
    obtain ⟨e, he, hedue⟩ :=
      exists_entry?_of_pass (id := s.nextId) (scope := .shared) (role := .owner) (state := .pending) hpass
    rw [if_neg (not_not.2 hsynced), he, Option.elim_some, hedue]
  · intro hdue
    rw [if_pos hdue]
  · intro hdue hfull
    rw [if_neg hdue, if_pos hfull]
  · rw [if_neg hdue, if_neg (Nat.not_le.2 hroom), proposeTaken_eq (entry?_keeps_id he) hsynced hroom]
    exact ⟨e, rfl, rfl⟩

/-! ### CANCEL -/

/-- A whole CANCEL: the owner's number, the entry, the station's state and the deadline, in this order (R142). -/
theorem commandCancel_eq (h : s.holds 0x22 [owner, seq] filler) :
    commandCancel s =
      if 15 < owner.toNat then s.answered .badArg []
      else if owner.toNat ≠ s.own.val then s.answered .notOwner []
      else
        (s.entry? ⟨s.own, seq⟩).elim (s.answered .noSuchAction []) fun e =>
          if e.scope = .shared ∧ s.ctl.state = .fault then s.answered .badState []
          else if e.scope = .shared ∧ e.state = .armed ∧ e.due - s.cfg.marginNs ≤ s.now then s.answered .tooLate []
          else reply .ok [] (cancelTaken e (clearEnded s)) := by
  have howner : field 0 1 [owner, seq] = owner.toNat := field_byte rfl
  have hseq : BitVec.ofNat 8 (field 1 1 [owner, seq]) = seq := by rw [field_byte rfl, BitVec.ofNat_toNat, BitVec.setWidth_eq]
  have hreached (e : Entry) : (clearEnded s).deadlineReached e = true ↔ e.due - s.cfg.marginNs ≤ s.now := decide_eq_true_iff
  rw [commandCancel, takeCommand_holds (n := 2) h rfl, ownCancel, howner, hseq, clearEnded_own, clearEnded_entry]
  cases s.entry? ⟨s.own, seq⟩ with
  | none => rfl
  | some e =>
    simp only [hreached, Option.elim_some]
    rfl

/-- A CANCEL that no check refuses is taken (R142). -/
theorem exec_cancel_taken (h : s.holds 0x22 [BitVec.ofNat 8 s.own.val, seq] filler) (he : s.entry? ⟨s.own, seq⟩ = some e)
    (hstate : e.scope = .shared → s.ctl.state ≠ .fault)
    (hahead : e.scope = .shared → e.state = .armed → s.now < e.due - s.cfg.marginNs) :
    exec .cancel s = .next (reply .ok [] (cancelTaken e (clearEnded s))) := by
  have hown : (BitVec.ofNat 8 s.own.val).toNat = s.own.val := by
    rw [BitVec.toNat_ofNat]
    omega
  rw [exec_cancel, commandCancel_eq h, hown, if_neg (by omega), if_neg (not_not.2 rfl), he, Option.elim_some,
    if_neg fun ⟨hshared, hfault⟩ => hstate hshared hfault,
    if_neg fun ⟨hshared, harmed, hreached⟩ => BitVec.not_le.2 (hahead hshared harmed) hreached]

/-- A CANCEL of a PENDING or COMMITTING entry (R143). -/
theorem cancelTaken_uncommitted (hscope : e.scope = .shared) (hstate : e.state = .pending ∨ e.state = .committing)
    (hpart : s.ctl.state.takesPart = true) :
    cancelTaken e s =
      { s with
        table.entries :=
          insertEntry { e with state := .cancelling, tries := some 0, marks := some ⟨.host, false⟩ } (dropEntry e.id s.table.entries)
        engine.needs := s.engine.needs.filter (fun n => n.source != .entry e.id) ++ [⟨.cancel, .entry e.id, s.engine.nextAge⟩]
        engine.nextAge := s.engine.nextAge + 1 } := by
  have hcancel : cancelTaken e s = cancelUncommitted e s := by rcases hstate with h | h <;> simp [cancelTaken, hscope, h]
  rw [hcancel]
  exact raiseFor_putEntry .cancel { e with state := .cancelling, tries := some 0, marks := some ⟨.host, false⟩ } hpart

theorem cancelTaken_armed (hscope : e.scope = .shared) (harmed : e.state = .armed) : cancelTaken e s = cancelArmed e s := by
  simp [cancelTaken, hscope, harmed]

/-- A CANCEL of an ARMED entry out of follow-up (R144). -/
theorem cancelArmed_unfollowed (hfollow : inFollowUp s.engine.needs e = false) (hpart : s.ctl.state.takesPart = true) :
    cancelArmed e s =
      { s with
        table.entries := insertEntry (e.toCancel s.members) (dropEntry e.id s.table.entries)
        engine.needs := s.engine.needs.filter (fun n => n.source != .entry e.id) ++ [⟨.cancel, .entry e.id, s.engine.nextAge⟩]
        engine.nextAge := s.engine.nextAge + 1 } := by
  rw [cancelArmed, hfollow]
  exact raiseFor_putEntry .cancel (e.toCancel s.members) hpart

/-- A CANCEL of an entry in follow-up: the end of the follow-up, with its reports, in front of the cancel (R135, R144). -/
theorem cancelArmed_followed (hfollow : inFollowUp s.engine.needs e = true) (hpart : s.ctl.state.takesPart = true) :
    cancelArmed e s =
      { s with
        table.entries := insertEntry (e.toCancel s.members) (dropEntry e.id s.table.entries)
        engine.needs := s.engine.needs.filter (fun n => n.source != .entry e.id) ++ [⟨.cancel, .entry e.id, s.engine.nextAge⟩]
        engine.nextAge := s.engine.nextAge + 1
        reports := (endFollowUp e s).reports } := by
  have hended := endFollowUp_eq e s
  have hentries : dropEntry e.id (endFollowUp e s).table.entries = dropEntry e.id s.table.entries := by
    rw [hended]
    exact (dropEntry_insertEntry { e with finalAwaited := false } _).trans (dropEntry_dropEntry ..)
  have hneeds : (endFollowUp e s).engine.needs.filter (fun n => n.source != .entry e.id) =
      s.engine.needs.filter fun n => n.source != .entry e.id := by
    rw [hended]
    exact (List.filter_filter ..).trans (by simp only [Bool.and_self])
  have hraised := raiseFor_putEntry (s := endFollowUp e s) .cancel (e.toCancel s.members) (by rw [hended]; exact hpart)
  rw [cancelArmed, hfollow, ← hentries, ← hneeds]
  refine hraised.trans ?_
  rw [hended]
  rfl

/-- Settles O15: the checks are those of `commandCancel_eq`; a taken CANCEL by the state of its entry. -/
theorem cancelActsByTheEntry : Obligations.CancelActsByTheEntry := by
  refine ⟨fun s owner seq filler h => ?_, fun s seq filler e h he => ?_⟩
  · rw [exec_cancel, commandCancel_eq h]
    refine ⟨fun hbeyond => ?_, fun hstation hother => ?_, fun hown hnone => ?_, fun e hown he hshared =>
      ⟨fun hfault => ?_, fun hfault harmed hreached => ?_⟩⟩
    · rw [if_pos hbeyond]
    · rw [if_neg (Nat.not_lt.2 hstation), if_pos hother]
    all_goals rw [if_neg (by omega), if_neg (not_not.2 hown)]
    · rw [hnone, Option.elim_none]
    · rw [he, Option.elim_some, if_pos ⟨hshared, hfault⟩]
    · rw [he, Option.elim_some, if_neg fun hf => hfault hf.2, if_pos ⟨hshared, harmed, hreached⟩]
  · intro others cancel
    have hplays (hpart : s.ctl.state.takesPart = true) : s.ctl.state ≠ .fault := fun hfault => by
      simp [hfault, StationState.takesPart] at hpart
    have taken (hstate : s.ctl.state ≠ .fault) (hahead : e.state = .armed → s.now < e.due - s.cfg.marginNs) :=
      exec_cancel_taken h he (fun _ => hstate) fun _ => hahead
    refine ⟨fun hloc => ?_, fun hshared hpart hstate => ?_, fun hshared hpart harmed hahead hneed => ?_,
      fun hshared hrole hpart harmed hahead hneed => ?_, fun hshared hfault hcancelling => ?_⟩
    · have hnot : e.scope ≠ .shared := by simp [hloc]
      rw [exec_cancel_taken h he (fun hs => absurd hs hnot) (fun hs => absurd hs hnot), cancelTaken, if_pos hloc]
      rfl
    · have hunarmed : e.state ≠ .armed := by rcases hstate with h | h <;> simp [h]
      rw [taken (hplays hpart) fun harmed => absurd harmed hunarmed,
        cancelTaken_uncommitted (s := clearEnded s) hshared hstate hpart]
      rfl
    · have hfollow : inFollowUp s.engine.needs e = false := by simp [inFollowUp, hneed]
      rw [taken (hplays hpart) fun _ => hahead, cancelTaken_armed hshared harmed,
        cancelArmed_unfollowed (s := clearEnded s) hfollow hpart]
      rfl
    · have hfollow : inFollowUp s.engine.needs e = true := by simp [inFollowUp, Entry.ownShared, hshared, hrole, harmed, hneed]
      intro armed missing
      rw [taken (hplays hpart) fun _ => hahead, cancelTaken_armed hshared harmed,
        cancelArmed_followed (s := clearEnded s) hfollow hpart, endFollowUp_eq]
      rfl
    · have hunarmed : e.state ≠ .armed := by simp [hcancelling]
      rw [taken hfault fun harmed => absurd harmed hunarmed]
      simp only [cancelTaken, hshared, hcancelling]
      rfl

end Sys2Proof.Machine
end

section
/-! PROOFS. TAKE_REPORT and TAKE_CAPTURE, and the layouts of results and records (O16). -/

namespace Sys2Proof.Machine

variable {s : State} {filler : List Byte} {k w : Nat}

/-! ### Bytes of a layout (R179) -/

/-- A byte of a value, counted from the least significant, by its quotient and by its bits. -/
theorem ofNat_div_pow (hroom : 8 * k + 8 ≤ w) (v : Nat) :
    BitVec.ofNat 8 (v / 256 ^ k) = (BitVec.ofNat w v).extractLsb' (8 * k) 8 := by
  have hpow : 256 ^ k = 2 ^ (8 * k) := (pow_mul 2 8 k).symm
  ext i hi
  have hinside : 8 * k + i < w := by omega
  rw [hpow, BitVec.getElem_extractLsb', BitVec.getLsbD_ofNat, decide_eq_true hinside, Bool.true_and,
    ← BitVec.getLsbD_eq_getElem hi, BitVec.getLsbD_ofNat, decide_eq_true hi, Bool.true_and, Nat.testBit_div_two_pow, Nat.add_comm]

/-- The bytes of a value stand in descending order. -/
theorem beBytes_eq_map (hroom : 8 * k ≤ w) (v : Nat) :
    beBytes k v = (List.range k).reverse.map fun i => (BitVec.ofNat w v).extractLsb' (8 * i) 8 := by
  induction k with
  | zero => rfl
  | succ k ih => rw [beBytes, ih (by omega), ofNat_div_pow hroom, List.range_succ, List.reverse_append]; rfl

theorem beBytes_two_nat (v : Nat) : beBytes 2 v = [(BitVec.ofNat 16 v).extractLsb' 8 8, (BitVec.ofNat 16 v).extractLsb' 0 8] :=
  beBytes_eq_map (by decide) v

theorem beBytes_four (v : BitVec 32) : beBytes 4 v.toNat = [24, 16, 8, 0].map fun i => v.extractLsb' i 8 := by
  rw [beBytes_eq_map (w := 32) (by decide), BitVec.ofNat_toNat, BitVec.setWidth_eq]
  rfl

theorem beBytes_eight (v : BitVec 64) : beBytes 8 v.toNat = [56, 48, 40, 32, 24, 16, 8, 0].map fun i => v.extractLsb' i 8 := by
  rw [beBytes_eq_map (w := 64) (by decide), BitVec.ofNat_toNat, BitVec.setWidth_eq]
  rfl

theorem ofNat_flagBit (i : Nat) (b : Bool) : BitVec.ofNat 8 (flagBit i b) = if b then BitVec.ofNat 8 (2 ^ i) else 0 := by
  cases b <;> rfl

/-! ### Codes (12.1, 12.4) -/

theorem stationState_code (x : StationState) :
    x.code = [StationState.off, .listen, .joining, .synced, .holdover, .leaving, .fault].idxOf x := by cases x <;> rfl

theorem moveCause_code (x : MoveCause) :
    x.code = [MoveCause.hostStart, .hostStop, .hostLeave, .adopted, .founded, .qualified, .merged, .holdoverEntered, .peerReturned,
      .left, .leaveFailed, .duplicate, .line].idxOf x := by cases x <;> rfl

theorem stepCause_code (x : StepCause) : x.code = [StepCause.adopt, .merge].idxOf x := by cases x <;> rfl

theorem dropCause_code (x : DropCause) : x.code = [DropCause.misses, .leave, .suspect].idxOf x := by cases x <;> rfl

theorem lateCause_code (x : LateCause) : x.code = [LateCause.deadline, .fault].idxOf x := by cases x <;> rfl

theorem failCause_code (x : FailCause) : x.code = [FailCause.tries, .late, .fault].idxOf x := by cases x <;> rfl

theorem entryState_code (x : EntryState) : x.code = [EntryState.pending, .committing, .held, .armed, .cancelling].idxOf x := by
  cases x <;> rfl

theorem actionEdge_code (x : ActionEdge) : x.code = [ActionEdge.rise, .fall, .pulse, .toggle].idxOf x := by cases x <;> rfl

theorem reportMode_code (x : ReportMode) : x.code = [ReportMode.each, .atEnd].idxOf x := by cases x <;> rfl

/-! ### Lengths (12.3, 12.4) -/

@[simp] theorem byte1_length (n : Nat) : (byte1 n).length = 1 := rfl

@[simp] theorem idBytes_length (id : ActionId) : (idBytes id).length = 2 := rfl

@[simp] theorem setBytes_length (m : StationSet) : (setBytes m).length = 2 := beBytes_length 2 _

@[simp] theorem signedBytes_length (k : Nat) (v : Int) : (signedBytes k v).length = k := beBytes_length k _

/-- The fields of a report fit into the field area (12.4). -/
theorem fields_length_le (x : ReportKind) : x.fields.2.length ≤ 15 := by
  cases x <;> simp [ReportKind.fields, beBytes_length]

theorem reportBytes_length (r : Report) : r.bytes.length = 26 := by
  have hfit := fields_length_le r.kind
  simp only [Report.bytes, List.length_append, byte1_length, beBytes_length, List.length_replicate]
  omega

theorem captureBytes_length (r : CaptureRecord) : r.bytes.length = 13 := by simp [CaptureRecord.bytes, beBytes_length]

theorem peerBytes_length (n : Station) (p : Peer) : (p.bytes n).length = 18 := by simp [Peer.bytes, beBytes_length]

theorem entryBytes_length (number : Nat) (e : Entry) (d : Option Time) : (e.bytes number d).length = 43 := by
  simp [Entry.bytes, beBytes_length]

theorem statusBytes_length (s : State) : s.statusBytes.length = 31 := by simp [State.statusBytes, beBytes_length]

theorem timeBytes_length (s : State) : s.timeBytes.length = 17 := by simp [State.timeBytes, beBytes_length]

/-! ### The queues (R156, R163) -/

theorem takeReport_oldest (h : s.holds 0x30 [] filler) {r : Report} {rest : List Report} (hrecords : s.reports.records = r :: rest) :
    commandTakeReport s = { s.answered .ok r.bytes with reports.records := rest } := by
  rw [commandTakeReport, takeCommand_holds (n := 0) h rfl, ownTakeReport, clearEnded_reports, hrecords]
  rfl

theorem takeReport_empty (h : s.holds 0x30 [] filler) (hempty : s.reports.records = []) : commandTakeReport s = s.answered .empty [] := by
  rw [commandTakeReport, takeCommand_holds (n := 0) h rfl, ownTakeReport, clearEnded_reports, hempty]
  rfl

theorem takeCapture_oldest (h : s.holds 0x31 [] filler) {r : CaptureRecord} {rest : List CaptureRecord}
    (hrecords : s.capture.records = r :: rest) :
    commandTakeCapture s = { s.answered .ok r.bytes with capture.records := rest } := by
  rw [commandTakeCapture, takeCommand_holds (n := 0) h rfl, ownTakeCapture, clearEnded_capture, hrecords]
  rfl

theorem takeCapture_empty (h : s.holds 0x31 [] filler) (hempty : s.capture.records = []) : commandTakeCapture s = s.answered .empty [] := by
  rw [commandTakeCapture, takeCommand_holds (n := 0) h rfl, ownTakeCapture, clearEnded_capture, hempty]
  rfl

/-- A report record around its row of the table of 12.4: the kind code and the field area before its padding. -/
theorem reportBytes_of_row (r : Report) {row : Byte × List Byte} (hrow : (BitVec.ofNat 8 r.kind.fields.1, r.kind.fields.2) = row) :
    r.bytes =
      [row.1] ++ beBytes 8 r.time.toNat ++ [BitVec.ofNat 8 r.state.code, BitVec.ofNat 8 r.loss] ++ row.2
        ++ List.replicate (15 - row.2.length) 0 := by
  subst hrow
  simp [Report.bytes, byte1]

/-- Settles O16: each queue by its two cases (`takeReport_oldest`, `takeReport_empty`, and those of TAKE_CAPTURE); a report around the row
of its kind (`reportBytes_of_row`), and the other layouts field by field. -/
theorem queuesGiveTheOldestRecord : Obligations.QueuesGiveTheOldestRecord := by
  unfold Obligations.QueuesGiveTheOldestRecord
  intro byte two four eight flag stateCode
  refine ⟨fun s filler => ⟨fun h => ?_, fun h => ?_⟩, fun r => ?_, fun r => ⟨captureBytes_length r, ?_⟩,
    fun n p => ⟨peerBytes_length n p, ?_⟩, fun number e d => ⟨entryBytes_length number e d, ?_⟩,
    fun s => ⟨statusBytes_length s, timeBytes_length s⟩⟩
  · exact ⟨fun r rest hrecords => congrArg Host.Outcome.next (takeReport_oldest h hrecords),
      fun hempty => congrArg Host.Outcome.next (takeReport_empty h hempty)⟩
  · exact ⟨fun r rest hrecords => congrArg Host.Outcome.next (takeCapture_oldest h hrecords),
      fun hempty => congrArg Host.Outcome.next (takeCapture_empty h hempty)⟩
  · intro idOf row
    have hrow : (BitVec.ofNat 8 r.kind.fields.1, r.kind.fields.2) = row := by
      subst row
      cases r.kind with
      | stateChanged old new cause => simp only [ReportKind.fields, stationState_code, moveCause_code]; rfl
      | stepped amount cause => simp only [ReportKind.fields, signedBytes, beBytes_eight, stepCause_code]; rfl
      | peerDropped n cause => simp only [ReportKind.fields, dropCause_code]; rfl
      | actionArmed id set | commitIncomplete id set | cancelIncomplete id set => simp only [ReportKind.fields, setBytes, beBytes_two]; rfl
      | actionFired id occurrence lateness flags skipped =>
        simp only [ReportKind.fields, byte1, beBytes_two_nat occurrence, beBytes_two, beBytes_eight, BitVec.ofNat_add, ofNat_flagBit]
        rfl
      | cancelLate id cause => simp only [ReportKind.fields, lateCause_code]; rfl
      | proposalFailed id missing cause => simp only [ReportKind.fields, setBytes, beBytes_two, failCause_code]; rfl
      | _ => rfl
    refine ⟨reportBytes_length r, ?_⟩
    rw [reportBytes_of_row r hrow, beBytes_eight, stationState_code]
  · simp only [CaptureRecord.bytes, byte1, BitVec.ofNat_add, ofNat_flagBit, beBytes_eight]
    cases r.source <;> cases r.edge <;> rfl
  · simp only [Peer.bytes, byte1, BitVec.ofNat_add, ofNat_flagBit, signedBytes, beBytes_eight, beBytes_two]
    rcases p.reported with _ | _ | _ | _ <;> cases p.anchor <;> rfl
  · simp only [Entry.bytes, byte1, BitVec.ofNat_add, ofNat_flagBit, setBytes, beBytes_two, beBytes_four, beBytes_eight,
      beBytes_two_nat e.fired, beBytes_two_nat e.skipped, entryState_code, actionEdge_code, reportMode_code]
    rfl

end Sys2Proof.Machine
end

section
/-! PROOFS. The host port: a transaction on the pins (O4), its judgement (O5), and READ_TIME (O7). -/

namespace Sys2Proof.Machine

variable {s : State} {p : HostPort} {c code : Byte} {n stray : Nat} {rest : List Byte} {bits tail : List Bool}

/-! ### The edges of a transaction (R168) -/

/-- One bit of a transaction: SCK rises with it on MOSI, and falls. -/
def bitEdges (b : Bool) : List SpiEdge := [.sckRise b, .sckFall]

theorem bitEdges_edge (b : Bool) (h : p.transaction = some bits) :
    (bitEdges b).foldl HostPort.edge p =
      { p with transaction := some (bits ++ [b]), misoPos := min p.result.bitLength (p.misoPos + 1) } := by
  simp [bitEdges, HostPort.edge, h]

/-- The bits of a transaction in progress: each goes behind the bits before it and moves the MISO position on, up to the result's end. -/
theorem bitsEdges_edge (more : List Bool) (h : p.transaction = some bits) (hpos : p.misoPos ≤ p.result.bitLength) :
    (more.flatMap bitEdges).foldl HostPort.edge p =
      { p with transaction := some (bits ++ more), misoPos := min p.result.bitLength (p.misoPos + more.length) } := by
  induction more generalizing p bits with
  | nil => simp [← h, Nat.min_eq_right hpos]
  | cons b more ih =>
    have hmin : min p.result.bitLength (min p.result.bitLength (p.misoPos + 1) + more.length) =
        min p.result.bitLength (p.misoPos + (more.length + 1)) := by omega
    rw [List.flatMap_cons, List.foldl_append, bitEdges_edge b h, ih rfl (Nat.min_le_left ..)]
    simp [hmin]

theorem transaction_edge (bits : List Bool) (h : p.transaction = none) :
    ([SpiEdge.csFall] ++ bits.flatMap bitEdges ++ [SpiEdge.csRise]).foldl HostPort.edge p =
      { p with ended := some bits, misoPos := min p.result.bitLength bits.length } := by
  have hfall : [SpiEdge.csFall].foldl HostPort.edge p = { p with transaction := some [], misoPos := 0 } := by simp [HostPort.edge, h]
  rw [List.foldl_append, List.foldl_append, hfall, bitsEdges_edge bits rfl (Nat.zero_le _)]
  simp [HostPort.edge, h]

/-! ### The bytes that bits spell (R168, R179) -/

/-- The bits of a byte, read from the most significant, are its value. -/
theorem byteBits_value : ∀ b : Byte, BitVec.ofNat 8 ((byteBits b).foldl (fun v x => 2 * v + x.toNat) 0) = b := by
  decide

theorem packBytes_byteBits (b : Byte) (more : List Bool) :
    packBytes (byteBits b ++ more) = (b :: (packBytes more).1, (packBytes more).2) :=
  congrArg (fun x => (x :: (packBytes more).1, (packBytes more).2)) (byteBits_value b)

/-- Less than eight bits spell no byte. -/
theorem packBytes_short (h : tail.length < 8) : packBytes tail = ([], tail.length) := by
  unfold packBytes
  split
  · simp only [List.length_cons] at h
    omega
  · rfl

theorem packBytes_flatMap (bytes : List Byte) (h : tail.length < 8) :
    packBytes (bytes.flatMap byteBits ++ tail) = (bytes, tail.length) := by
  induction bytes with
  | nil => exact packBytes_short h
  | cons b bytes ih => rw [List.flatMap_cons, List.append_assoc, packBytes_byteBits, ih]

/-- Settles O4: the edges by `transaction_edge`, and the bytes by `packBytes_flatMap`. -/
theorem spiTransactionIsRead : Obligations.SpiTransactionIsRead := by
  refine ⟨⟨fun p bits h => transaction_edge bits h, fun s => ?_⟩, fun bytes tail h => packBytes_flatMap bytes h⟩
  rw [State.miso, Result.bytes, List.getD_eq_getElem?_getD]
  cases s.port.transaction <;> rfl

/-! ### The judgement (R169) -/

/-- A transaction has the right length where its bytes are arguments and filler, with no bit behind them. -/
theorem countRight_iff :
    countRight n rest stray = true ↔
      ∃ args filler : List Byte, rest = args ++ filler ∧ args.length = n ∧ (∀ b ∈ filler, b = 0xFF) ∧ stray = 0 := by
  simp only [countRight, Bool.and_eq_true, decide_eq_true_eq, List.all_eq_true, beq_iff_eq]
  constructor
  · rintro ⟨⟨hlong, hfiller⟩, hstray⟩
    exact ⟨rest.take n, rest.drop n, (List.take_append_drop n rest).symm, List.length_take_of_le hlong, hfiller, hstray⟩
  · rintro ⟨args, filler, rfl, rfl, hfiller, hstray⟩
    exact ⟨⟨by simp, by simpa using hfiller⟩, hstray⟩

theorem takeCommand_badLength (owner : List Byte → State → State) (h : s.command = some (code :: rest, stray))
    (hcount : ¬countRight n rest stray = true) : takeCommand code n owner s = s.answered .badLength [] := by
  rw [takeCommand, h]
  exact (if_pos rfl).trans (if_neg hcount)

/-- A transaction without this row's code is left to the others. -/
theorem takeCommand_otherCode (owner : List Byte → State → State) (h : ∀ rest stray, s.command ≠ some (code :: rest, stray)) :
    takeCommand code n owner s = s := by
  unfold takeCommand
  split
  next c rest stray hcommand => exact if_neg fun hc : c = code => h rest stray (hc ▸ hcommand)
  next => rfl

theorem badCommand_unknown (h : s.command = some (c :: rest, stray)) (hc : c ∉ commandCodes) :
    badCommand s = s.answered .badCommand [] := by
  rw [badCommand, h]
  exact if_neg (by simpa using hc)

/-- Each row of the table of R171 judges the transaction for its own code and number of argument bytes. -/
theorem hostRows_takeCommand :
    ∀ row ∈ hostRows, ∃ owner, ∀ s, exec row.1 s = .next (takeCommand row.2.1 row.2.2 owner s) := by
  simp only [hostRows, List.forall_mem_cons]
  exact ⟨⟨ownNop, exec_nop⟩, ⟨ownConfigure, exec_configure⟩, ⟨ownStart, exec_start⟩, ⟨ownStop, exec_stop⟩, ⟨ownLeave, exec_leave⟩,
    ⟨ownReadTime, exec_readTime⟩, ⟨ownReadStatus, exec_readStatus⟩, ⟨ownReadPeer, exec_readPeer⟩, ⟨ownReadAction, exec_readAction⟩,
    ⟨ownPropose, exec_propose⟩, ⟨ownSchedule, exec_schedule⟩, ⟨ownCancel, exec_cancel⟩, ⟨ownTakeReport, exec_takeReport⟩,
    ⟨ownTakeCapture, exec_takeCapture⟩, List.forall_mem_nil _⟩

/-- Settles O5: every row of the table judges by `takeCommand` (`hostRows_takeCommand`), which answers by the count (`countRight_iff`) and
leaves another row's transaction alone. -/
theorem transactionsAreJudged : Obligations.TransactionsAreJudged := by
  refine ⟨fun s c rest stray h hc => ?_, fun s row hrow rest stray h hwrong => ?_, fun s row hrow hother => ?_⟩
  · exact congrArg Host.Outcome.next (badCommand_unknown h hc)
  · obtain ⟨owner, hexec⟩ := hostRows_takeCommand row hrow
    have hcount : ¬countRight row.2.2 rest stray = true := fun hright => by
      obtain ⟨args, filler, hrest, hargs, hfiller, hstray⟩ := countRight_iff.1 hright
      exact hwrong args filler hrest hargs hfiller hstray
    rw [hexec, takeCommand_badLength owner h hcount]
  · obtain ⟨owner, hexec⟩ := hostRows_takeCommand row hrow
    rw [hexec, takeCommand_otherCode owner hother]

/-! ### READ_TIME -/

/-- Settles O7: a whole READ_TIME reaches its owner (`takeCommand_holds`), which answers with the three fields. -/
theorem readTimeGivesTimeStateAndCorrection : Obligations.ReadTimeGivesTimeStateAndCorrection :=
  fun _ _ h => congrArg Host.Outcome.next (takeCommand_holds h rfl ownReadTime)

end Sys2Proof.Machine
end

section
/-! PROOFS. CONFIGURE (O8): the layout of a configuration record, and what is stored. -/

namespace Sys2Proof.Machine

variable {s : State} {c : ConfigRecord} {speed : SpeedClass} {a filler bytes : List Byte}
  {offset size k v : Nat}

/-! ### Values and their bytes (R179) -/

theorem beNat_cons (b : Byte) (bytes : List Byte) : beNat (b :: bytes) = b.toNat * 256 ^ bytes.length + beNat bytes := by
  rw [← List.singleton_append, beNat_append]
  simp [beNat]

theorem beNat_lt (bytes : List Byte) : beNat bytes < 256 ^ bytes.length := by
  induction bytes with
  | nil => simp [beNat]
  | cons b bytes ih =>
    rw [beNat_cons, List.length_cons, pow_succ]
    nlinarith [b.isLt]

/-- `k` bytes carry a value modulo their range. -/
theorem beBytes_congr {u : Nat} (h : u % 256 ^ k = v % 256 ^ k) : beBytes k u = beBytes k v := by
  have hsame : BitVec.ofNat (8 * k) u = BitVec.ofNat (8 * k) v := by
    apply BitVec.eq_of_toNat_eq
    rwa [BitVec.toNat_ofNat, BitVec.toNat_ofNat, pow_mul]
  rw [beBytes_eq_map le_rfl u, beBytes_eq_map le_rfl v, hsame]

theorem beBytes_beNat (h : bytes.length = k) : beBytes k (beNat bytes) = bytes := by
  subst h
  induction bytes with
  | nil => rfl
  | cons b bytes ih =>
    have hlow := beNat_lt bytes
    have hhead : (b.toNat * 256 ^ bytes.length + beNat bytes) / 256 ^ bytes.length = b.toNat := by
      rw [Nat.mul_comm, Nat.mul_add_div (by positivity), Nat.div_eq_of_lt hlow, Nat.add_zero]
    have htail : beBytes bytes.length (b.toNat * 256 ^ bytes.length + beNat bytes) = bytes := by
      rw [beBytes_congr (Nat.mul_add_mod_self_right ..), ih]
    rw [beNat_cons, List.length_cons, beBytes, hhead, htail, BitVec.ofNat_toNat, BitVec.setWidth_eq]

/-- A field that lies within the bytes, written out again. -/
theorem beBytes_field (h : offset + size ≤ bytes.length) : beBytes size (field offset size bytes) = (bytes.drop offset).take size := by
  apply beBytes_beNat
  rw [List.length_take, List.length_drop]
  omega

/-- A value reads back from its place where it has room there. -/
theorem field_of_place (hplace : (bytes.drop offset).take size = beBytes size v) (hroom : v < 256 ^ size) :
    field offset size bytes = v := by
  rw [field, hplace, beNat_beBytes, Nat.mod_eq_of_lt hroom]

theorem signedBytes_beInt (h : bytes.length = k) : signedBytes k (beInt bytes) = bytes := by
  subst h
  rw [signedBytes, beInt, BitVec.ofInt_toInt, BitVec.toNat_ofNat, pow_mul]
  exact (beBytes_congr (Nat.mod_mod ..)).trans (beBytes_beNat rfl)

theorem beInt_signedBytes (k : Nat) (v : Int) : beInt (signedBytes k v) = v.bmod (2 ^ (8 * k)) := by
  have hwidth (n : Nat) (hn : n = k) : (BitVec.ofNat (8 * n) (beNat (signedBytes k v))).toInt = v.bmod (2 ^ (8 * k)) := by
    subst hn
    rw [signedBytes, beNat_beBytes, ← BitVec.toInt_ofInt]
    congr 1
    apply BitVec.eq_of_toNat_eq
    rw [BitVec.toNat_ofNat, show 256 ^ n = 2 ^ (8 * n) from (pow_mul 2 8 n).symm, Nat.mod_mod, Nat.mod_eq_of_lt (BitVec.isLt _)]
  exact hwidth _ (signedBytes_length k v)

/-! ### The configuration record (12.5) -/

/-- The byte of a capture setting: bits 1-0 edge, bit 4 share (12.5). -/
def CaptureSetting.byte (x : CaptureSetting) : Byte :=
  BitVec.ofNat 8 ((match x.edge with | .rise => 1 | .fall => 2 | .both => 3) + flagBit 4 x.share)

theorem captureSetting?_byte (x : CaptureSetting) : captureSetting? x.byte = some x := by
  rcases x with ⟨edge, share⟩
  cases edge <;> cases share <;> rfl

theorem byte_of_captureSetting? : ∀ b : Byte, ∀ x ∈ captureSetting? b, x.byte = b := by
  decide

/-- The bytes of a record, with its four capture bytes named. -/
theorem configBytes_eq (c : ConfigRecord) :
    c.bytes =
      byte1 c.roundCode ++ beBytes 2 c.stepThreshold ++ beBytes 2 c.syncTolerance ++ byte1 c.commitMargin ++ beBytes 2 c.lineDelay
        ++ signedBytes 4 c.initialTrim ++ c.capture.toList.map CaptureSetting.byte ++ byte1 c.idle.toNat := rfl

theorem configBytes_length (c : ConfigRecord) : c.bytes.length = 17 := by
  simp [configBytes_eq, beBytes_length]

theorem beBytes_one (v : Nat) : beBytes 1 v = byte1 v := by simp [beBytes, byte1]

theorem field_of_byte1 (hplace : (bytes.drop offset).take 1 = byte1 v) (hroom : v < 256) : field offset 1 bytes = v :=
  field_of_place (hplace.trans (beBytes_one v).symm) hroom

/-- A valid record reads back from its bytes: each range of R172 fits its field. -/
theorem decodeConfig_bytes (h : c.valid speed = true) : decodeConfig c.bytes = some c := by
  obtain ⟨roundCode, stepThreshold, syncTolerance, commitMargin, lineDelay, initialTrim, ⟨⟨captures⟩, hfour⟩, idle⟩ := c
  obtain ⟨c0, c1, c2, c3, rfl⟩ := List.length_eq_four.1 hfour
  simp only [ConfigRecord.valid, Bool.and_eq_true, decide_eq_true_eq] at h
  obtain ⟨⟨⟨⟨⟨⟨⟨hroundMax, -, hstepMax⟩, -, htoleranceMax⟩, -, hmarginMax⟩, hdelayMax⟩, htrimMin, htrimMax⟩, -⟩, -⟩ := h
  generalize hbytes : ConfigRecord.bytes _ = a
  rw [configBytes_eq] at hbytes
  have hidle : field 16 1 a = idle.toNat := field_of_byte1 (by subst hbytes; rfl) (by omega)
  have htrim : beInt ((a.drop 8).take 4) = initialTrim := by
    have hplace : (a.drop 8).take 4 = signedBytes 4 initialTrim := by subst hbytes; rfl
    rw [hplace, beInt_signedBytes, Int.bmod_eq_of_le (by omega) (by omega)]
  obtain ⟨h0, h1, h2, h3⟩ : a.getD 12 0 = c0.byte ∧ a.getD 13 0 = c1.byte ∧ a.getD 14 0 = c2.byte ∧ a.getD 15 0 = c3.byte := by
    subst hbytes
    exact ⟨rfl, rfl, rfl, rfl⟩
  have hround : field 0 1 a = roundCode := field_of_byte1 (by subst hbytes; rfl) (by omega)
  have hstep : field 1 2 a = stepThreshold := field_of_place (by subst hbytes; rfl) (by omega)
  have htolerance : field 3 2 a = syncTolerance := field_of_place (by subst hbytes; rfl) (by omega)
  have hmargin : field 5 1 a = commitMargin := field_of_byte1 (by subst hbytes; rfl) (by omega)
  have hdelay : field 6 2 a = lineDelay := field_of_place (by subst hbytes; rfl) (by omega)
  simp only [decodeConfig, h0, h1, h2, h3, captureSetting?_byte, hround, hstep, htolerance, hmargin, hdelay, htrim, hidle, idle.isLt,
    if_true, BitVec.ofNat_toNat, BitVec.setWidth_eq]

/-- The argument bytes of CONFIGURE, cut at the fields of a record. -/
theorem configArgs_eq (ha : a.length = 17) :
    a =
      (a.drop 0).take 1 ++ (a.drop 1).take 2 ++ (a.drop 3).take 2 ++ (a.drop 5).take 1 ++ (a.drop 6).take 2 ++ (a.drop 8).take 4
        ++ [a.getD 12 0, a.getD 13 0, a.getD 14 0, a.getD 15 0] ++ (a.drop 16).take 1 :=
  match a, ha with
  | [_, _, _, _, _, _, _, _, _, _, _, _, _, _, _, _, _], _ => rfl

/-- Bytes that decode are those of the record they decode to. -/
theorem bytes_decodeConfig (ha : a.length = 17) (h : decodeConfig a = some c) : c.bytes = a := by
  have hfield {offset size : Nat} (hwithin : offset + size ≤ 17) := beBytes_field (bytes := a) (ha ▸ hwithin)
  have htrim : signedBytes 4 (beInt ((a.drop 8).take 4)) = (a.drop 8).take 4 := signedBytes_beInt (by simp [ha])
  unfold decodeConfig at h
  split at h
  next c0 c1 c2 c3 h0 h1 h2 h3 =>
    split at h
    next hidle =>
      cases h
      have hcaptures :
          #v[c0, c1, c2, c3].toList.map CaptureSetting.byte = [a.getD 12 0, a.getD 13 0, a.getD 14 0, a.getD 15 0] := by
        rw [← byte_of_captureSetting? _ _ h0, ← byte_of_captureSetting? _ _ h1, ← byte_of_captureSetting? _ _ h2,
          ← byte_of_captureSetting? _ _ h3]
        rfl
      rw [configBytes_eq]
      simp only [BitVec.toNat_ofNat, Nat.mod_eq_of_lt hidle, htrim, hcaptures, ← beBytes_one]
      rw [hfield (by decide), hfield (by decide), hfield (by decide), hfield (by decide), hfield (by decide), hfield (by decide)]
      exact (configArgs_eq ha).symm
    next => cases h
  next => cases h

/-! ### CONFIGURE -/

/-- A whole CONFIGURE outside OFF, and in OFF by what its argument bytes decode to (R173). -/
theorem commandConfigure_eq (ha : a.length = 17) (h : s.holds 0x01 a filler) :
    commandConfigure s =
      if s.ctl.state = .off then
        match decodeConfig a with
        | some c => if c.valid s.straps.speed then { s.answered .ok [] with port.store := c } else s.answered .badConfig []
        | none => s.answered .badConfig []
      else s.answered .badState [] := takeCommand_holds h ha ownConfigure

/-- Settles O8: a whole CONFIGURE is judged by `commandConfigure_eq`; a valid record decodes from its bytes (`decodeConfig_bytes`), and
bytes that decode are a record's (`bytes_decodeConfig`), valid or not. -/
theorem configureStoresValidRecords : Obligations.ConfigureStoresValidRecords := by
  refine ⟨fun s c filler hoff hvalid h => ?_, fun s a filler hoff ha hinvalid h => ?_, fun s a filler hon ha h => ?_⟩
  · rw [exec_configure, commandConfigure_eq (configBytes_length c) h, if_pos hoff, decodeConfig_bytes hvalid]
    exact congrArg Host.Outcome.next (if_pos hvalid)
  · rw [exec_configure, commandConfigure_eq ha h, if_pos hoff]
    cases hc : decodeConfig a with
    | none => rfl
    | some c =>
      exact congrArg Host.Outcome.next (if_neg fun hvalid => hinvalid c hvalid (bytes_decodeConfig ha hc).symm)
  · rw [exec_configure, commandConfigure_eq ha h, if_neg hon]

end Sys2Proof.Machine
end

section
/-! PROOFS. A step runs the command at the front of the queue (O1), and every command answers a next state and leaves the queue of commands
as it is (O2): no operation writes the queue, so each leaves it where the operations it is made of do. -/

namespace Sys2Proof.Machine

variable (s : State)

/-! ### The step -/

theorem step_of_empty (h : s.pending = []) : step s = .next s := by
  unfold step
  rw [h]

theorem step_of_cons {c : Instr} {rest : List Instr} (h : s.pending = c :: rest) : step s = exec c { s with pending := rest } := by
  unfold step
  rw [h]

/-- Settles O1: the two cases of the queue are the two of `step`. -/
theorem stepRunsTheFrontCommand : Obligations.StepRunsTheFrontCommand :=
  ⟨fun _ _ s h => step_of_cons s h, step_of_empty⟩

/-! ### Needs, reports and the frame in flight -/

/-- An event repeated over a list leaves the queue, where each time does. -/
theorem foldl_pending {α : Type} {f : State → α → State} (hf : ∀ s a, (f s a).pending = s.pending) (xs : List α) :
    (xs.foldl f s).pending = s.pending :=
  List.foldlRecOn (motive := fun t => t.pending = s.pending) xs f rfl fun t ht a _ => (hf t a).trans ht

@[simp] theorem queueReports_pending (ks : List ReportKind) : (queueReports ks s).pending = s.pending :=
  foldl_pending s (fun s k => queueReport_pending s k) ks

@[simp] theorem raiseNeed_pending (kind : FrameKind) (source : NeedSource) : (raiseNeed kind source s).pending = s.pending := by
  obtain ⟨needs, age, he⟩ := raiseNeed_frame kind source s
  rw [he]

@[simp] theorem raiseFor_pending (kind : FrameKind) (e : Entry) : (raiseFor kind e s).pending = s.pending :=
  raiseNeed_pending s kind (.entry e.id)

@[simp] theorem ownerCut_pending (id : ActionId) (kinds : List FrameKind) : (ownerCut id kinds s).pending = s.pending := by
  unfold ownerCut
  split
  · split
    · split <;> simp
    · rfl
  · rfl

/-! ### Firing -/

@[simp] theorem fire_pending (late : Bool) (e : Entry) : (fire late e s).pending = s.pending := by
  have houtput : (fireOutput late e s).pending = s.pending := rfl
  have hreport (t : State) : (fireReport late e t).pending = t.pending := by
    unfold fireReport
    split <;> simp
  unfold fire fireEntry
  split <;> simp [hreport, houtput]

@[simp] theorem actionDue_pending : (actionDue s).pending = s.pending := by
  rcases actionDue_cases s with ⟨_, he⟩ | ⟨e, _, he⟩ <;> simp [he]

@[simp] theorem pulseEnd_pending (c : Channel) : (pulseEnd c s).pending = s.pending := by
  rcases pulseEnd_cases c s with he | ⟨_, he⟩ <;> simp [he]

/-! ### Owner phases -/

@[simp] theorem becomeCommitting_pending (e : Entry) : (becomeCommitting e s).pending = s.pending := by simp [becomeCommitting]

@[simp] theorem proposeCompleted_pending (acks : StationSet) (e : Entry) : (proposeCompleted acks e s).pending = s.pending := by
  unfold proposeCompleted proposeOutcome
  dsimp only
  split
  · simp
  · split <;> simp

@[simp] theorem endFollowUp_pending (e : Entry) : (endFollowUp e s).pending = s.pending := by simp [endFollowUp]

@[simp] theorem commitCompleted_pending (acks : StationSet) (e : Entry) : (commitCompleted acks e s).pending = s.pending := by
  unfold commitCompleted
  dsimp only
  split <;> simp

@[simp] theorem endCancel_pending (e : Entry) : (endCancel e s).pending = s.pending := by simp [endCancel]

@[simp] theorem cancelCompleted_pending (acks : StationSet) (e : Entry) : (cancelCompleted acks e s).pending = s.pending := by
  unfold cancelCompleted
  dsimp only
  split <;> simp

@[simp] theorem cancelPoint_pending (e : Entry) : (cancelPoint e s).pending = s.pending := by
  unfold cancelPoint
  split <;> simp

@[simp] theorem entryCheckComplete_pending (kind : FrameKind) (id : ActionId) :
    (entryCheckComplete kind id s).pending = s.pending := by
  unfold entryCheckComplete
  split
  · rfl
  · split
    · rfl
    · split <;> rfl
    · exact cancelPoint_pending ..
    · rfl

@[simp] theorem entryCompleted_pending (kind : FrameKind) (id : ActionId) (acks : StationSet) (held : Bool) :
    (entryCompleted kind id acks held s).pending = s.pending := by
  unfold entryCompleted
  split
  · rfl
  · split
    · exact proposeCompleted_pending ..
    · split <;> simp
    · exact cancelCompleted_pending ..
    · rfl

@[simp] theorem entryFailed_pending (kind : FrameKind) (id : ActionId) (held : Bool) :
    (entryFailed kind id held s).pending = s.pending := by
  unfold entryFailed
  split
  · rfl
  · split
    · split <;> simp
    · split <;> simp
    · rfl

/-! ### Deadlines, left notices and the member side -/

@[simp] theorem cancelDeadline_pending (e : Entry) : (cancelDeadline e s).pending = s.pending := by
  unfold cancelDeadline
  extract_lets t
  have ht : t.pending = s.pending := ownerCut_pending ..
  split
  · split <;> simp [ht]
  · split <;> simp [ht]

@[simp] theorem answerDeadline_pending (e : Entry) : (answerDeadline e s).pending = s.pending := by
  have hproposal : (proposalDeadline e s).pending = s.pending := by simp [proposalDeadline]
  unfold answerDeadline
  split
  · exact hproposal
  · exact hproposal
  · rfl
  · exact cancelDeadline_pending ..
  · rfl

@[simp] theorem deadlineEvent_pending (id : ActionId) : (deadlineEvent id s).pending = s.pending := by
  rcases deadlineEvent_cases id s with he | ⟨e, _, _, he⟩ <;> simp [he]

@[simp] theorem followUpDeadline_pending (id : ActionId) : (followUpDeadline id s).pending = s.pending := by
  rcases followUpDeadline_cases id s with he | ⟨e, _, _, _, _, he⟩ <;> rw [he]
  split <;> simp

theorem dropHeld_pending (entries : List Entry) : (dropHeld entries s).pending = s.pending := by
  unfold dropHeld
  exact foldl_pending s (fun _ _ => by simp) entries

@[simp] theorem leftNotice_pending (n : Station) : (leftNotice n s).pending = s.pending := by
  have hprune (t : State) (e : Entry) : (pruneEntry n e t).pending = t.pending := by
    rcases pruneEntry_cases n e t with ⟨_, _, he⟩ | ⟨_, he⟩ <;> simp [he]
  have hpruned : (pruneRequired n s).pending = s.pending := foldl_pending s hprune _
  exact (dropHeld_pending ..).trans hpruned

@[simp] theorem storeCopy_pending (e : Entry) : (storeCopy e s).pending = s.pending := by
  rcases storeCopy_cases e s with ⟨_, he⟩ | ⟨_, he⟩ <;> simp [he]

theorem memberPropose_pending (sender : Station) (payload : List Byte) :
    (memberPropose sender payload s).1.pending = s.pending := by
  unfold memberPropose
  dsimp only
  split
  · rfl
  · split
    · split
      · split
        · rfl
        · split <;> simp
      · split <;> simp
    · rfl

theorem memberCommit_pending (own sender : Station) (payload : List Byte) :
    (memberCommit own sender payload s).1.pending = s.pending := by
  unfold memberCommit
  dsimp only
  split
  · rfl
  · split
    · split <;> rfl
    all_goals rfl

@[simp] theorem discardShared_pending : (discardShared s).pending = s.pending :=
  foldl_pending s (fun s (e : Entry) => removeEntry_pending s e.id) _

/-! ### The Station Controller -/

@[simp] theorem startStation_pending (initial : Time) : (startStation initial s).pending = s.pending := rfl

@[simp] theorem goOff_pending (cause : MoveCause) : (goOff cause s).pending = s.pending := rfl

@[simp] theorem enterLeaving_pending : (enterLeaving s).pending = s.pending := by simp [enterLeaving]

@[simp] theorem enterFault_pending (cause : FaultCause) (move : MoveCause) (o : FaultOrder) :
    (enterFault cause move o s).pending = s.pending := by
  have hmove (t : State) : (moveToFault cause move t).pending = t.pending := rfl
  cases o with
  | stateFirst => simp [enterFault, hmove]
  | protocolFirst => simp [enterFault, hmove]

@[simp] theorem listenTimeout_pending : (listenTimeout s).pending = s.pending := by
  unfold listenTimeout
  split <;> simp

@[simp] theorem requestStep_pending (st : TimeStep) : (requestStep st s).pending = s.pending := by
  unfold requestStep
  split <;> simp

@[simp] theorem adopt_pending (offset : Int) : (adopt offset s).pending = s.pending := by simp [adopt]

/-! ### The Peer Table -/

@[simp] theorem joinedNotice_pending : (joinedNotice s).pending = s.pending := by
  unfold joinedNotice
  split <;> simp

@[simp] theorem takeSample_pending (n : Station) (c : SyncContent) (offset : Int) : (takeSample n c offset s).pending = s.pending := by
  unfold takeSample
  dsimp only
  split <;> simp

@[simp] theorem setMember_pending (n : Station) (member : Bool) : (setMember n member s).pending = s.pending := by
  unfold setMember
  dsimp only
  split
  · simp
  · split <;> simp

@[simp] theorem syncReceived_pending (n : Station) (c : SyncContent) (offset : Int) :
    (syncReceived n c offset s).pending = s.pending := by simp [syncReceived]

@[simp] theorem syncHeard_pending (n : Station) (c : SyncContent) (offset : Int) : (syncHeard n c offset s).pending = s.pending := by
  unfold syncHeard
  dsimp only
  split <;> simp

@[simp] theorem dropPeer_pending (n : Station) (cause : DropCause) : (dropPeer n cause s).pending = s.pending := by
  unfold dropPeer
  dsimp only
  split <;> simp

@[simp] theorem leaveReceived_pending (n : Station) : (leaveReceived n s).pending = s.pending := by
  unfold leaveReceived
  split <;> simp

@[simp] theorem countMiss_pending (n : Station) : (countMiss n s).pending = s.pending := by
  unfold countMiss
  dsimp only
  split <;> simp

@[simp] theorem judgeMember_pending (n : Station) (residual : Int) : (judgeMember n residual s).pending = s.pending := by
  unfold judgeMember
  dsimp only
  split
  · split <;> simp
  · simp

@[simp] theorem judgeSuspect_pending (n : Station) (residual : Int) : (judgeSuspect n residual s).pending = s.pending := by
  unfold judgeSuspect
  dsimp only
  split
  · simp
  · split
    · split <;> simp
    · simp

@[simp] theorem judgePeer_pending (c : Int) (n : Station) : (judgePeer c n s).pending = s.pending := by
  unfold judgePeer
  dsimp only
  split
  · rfl
  · simp
  · split
    · simp
    · split <;> simp

/-! ### The Round Engine -/

@[simp] theorem roundStart_pending : (roundStart s).pending = s.pending := by
  rcases roundStart_cases s with he | ⟨_, he⟩ <;> simp [he]

@[simp] theorem closeStage1_pending : (closeStage1 s).pending = s.pending := by
  unfold closeStage1
  dsimp only
  split <;> simp

@[simp] theorem requestSlew_pending (q : Int) : (requestSlew q s).1.pending = s.pending := by
  unfold requestSlew
  split <;> rfl

@[simp] theorem requestTrim_pending (v : Int) : (requestTrim v s).1.pending = s.pending := by
  unfold requestTrim
  split <;> rfl

@[simp] theorem closeStage3_pending (c : Int) (n : Nat) : (closeStage3 c n s).pending = s.pending := by
  unfold closeStage3
  extract_lets q a b
  have ha : a.1.pending = s.pending := requestSlew_pending ..
  have hb : b.1.pending = s.pending := by
    unfold b
    split <;> simp [ha]
  split <;> simp [hb]

@[simp] theorem closeStage4_pending (c : Int) (order : List Station) : (closeStage4 c order s).pending = s.pending :=
  foldl_pending s (fun s n => judgePeer_pending s c n) order

@[simp] theorem yieldNotices_pending (left : List Station) : (yieldNotices left s).pending = s.pending :=
  foldl_pending s leftNotice_pending left

@[simp] theorem yieldMove_pending : (yieldMove s).pending = s.pending := rfl

@[simp] theorem yieldTo_pending (k : Candidate) (o : CloseOrder) : (yieldTo k o s).pending = s.pending := by
  unfold yieldTo yieldParts
  dsimp only
  split <;> simp

@[simp] theorem closeStage6_pending (c : Int) : (closeStage6 c s).pending = s.pending := by
  unfold closeStage6
  split
  · split
    · rfl
    · split <;> rfl
  · rfl

@[simp] theorem closeStage7_pending (before : StationState) : (closeStage7 before s).pending = s.pending := by
  unfold closeStage7
  split <;> rfl

@[simp] theorem closeStages567_pending (c : Int) (o : CloseOrder) (before : StationState) :
    (closeStages567 c o before s).pending = s.pending := by
  unfold closeStages567
  split <;> simp

@[simp] theorem closeRound_pending (o : CloseOrder) : (closeRound o s).pending = s.pending := by simp [closeRound]

@[simp] theorem roundClose_pending (o : CloseOrder) : (roundClose o s).pending = s.pending := by
  rcases roundClose_cases o s with he | ⟨_, he⟩ <;> simp [he]

@[simp] theorem tableNotice_pending (st : TimeStep) : (tableNotice st s).pending = s.pending := by
  have hanswered (t : State) : (answerPassedDeadlines t).pending = t.pending := foldl_pending t answerDeadline_pending _
  have hfired (t : State) : (fireAllLate t).pending = t.pending := foldl_pending t (fun t e => fire_pending t true e) _
  unfold tableNotice
  dsimp only
  split <;> simp [hanswered, hfired]

@[simp] theorem stepNotice_pending (steppedFirst : Bool) : (stepNotice steppedFirst s).pending = s.pending := by
  have hrounds (t : State) : (roundsNotice t).pending = t.pending := by
    unfold roundsNotice
    split <;> simp
  unfold stepNotice
  split
  · dsimp only
    rw [hrounds]
    split <;> simp
  · rfl

/-! ### The Capture Unit -/

@[simp] theorem joinMarks_pending (m : Mark) : (joinMarks m s).pending = s.pending := by
  unfold joinMarks
  dsimp only
  split <;> simp

@[simp] theorem recordEdge_pending (i : Channel) (e : CaptureEdge) : (recordEdge i e s).pending = s.pending := by
  unfold recordEdge
  dsimp only
  split <;> simp

@[simp] theorem captureEdge_pending : (captureEdge s).pending = s.pending := by
  rcases captureEdge_cases s with he | ⟨i, e, _, he⟩ <;> rw [he]
  split <;> simp

theorem memberMark_pending (sender : Station) (payload : List Byte) : (memberMark sender payload s).1.pending = s.pending := by
  unfold memberMark
  split <;> rfl

@[simp] theorem markCompleted_pending : (markCompleted s).pending = s.pending := by
  unfold markCompleted
  dsimp only
  split <;> simp

/-! ### Frames begin -/

@[simp] theorem latchFrameStart_pending : (latchFrameStart s).pending = s.pending := by
  unfold latchFrameStart
  split <;> rfl

@[simp] theorem driveNow_pending : (driveNow s).pending = s.pending := by
  unfold driveNow
  split
  · split <;> rfl
  · rfl

@[simp] theorem access_pending : (access s).pending = s.pending := by
  rcases access_cases s with he | ⟨need, _, _, he⟩ <;> simp [he]

@[simp] theorem frameStart_pending : (frameStart s).pending = s.pending := by
  unfold frameStart
  split
  · unfold takeFrameStart
    dsimp only
    split
    · simp
    · simp
    · simp
    all_goals split <;> simp
  · rfl

/-! ### Outcomes -/

@[simp] theorem leaveFailed_pending : (leaveFailed s).pending = s.pending := by
  unfold leaveFailed
  split <;> rfl

@[simp] theorem reportFailed_pending (need : Need) : (reportFailed need s).pending = s.pending := by
  unfold reportFailed
  split
  · rfl
  · rfl
  · exact entryFailed_pending ..
  · split <;> simp

@[simp] theorem reportCompleted_pending (need : Need) (acks : StationSet) (held : Bool) :
    (reportCompleted need acks held s).pending = s.pending := by
  unfold reportCompleted
  split
  · split <;> rfl
  · split <;> simp
  · exact entryCompleted_pending ..
  · split <;> rfl

@[simp] theorem reportCheckComplete_pending (need : Need) : (reportCheckComplete need s).pending = s.pending := by
  unfold reportCheckComplete
  split
  · exact entryCheckComplete_pending ..
  all_goals rfl

@[simp] theorem checkComplete_pending : (checkComplete s).pending = s.pending := by
  unfold checkComplete
  split
  · dsimp only
    rw [reportCheckComplete_pending]
    split <;> rfl
  · rfl

@[simp] theorem frameCompleted_pending : (frameCompleted s).pending = s.pending := by
  unfold frameCompleted
  split
  · split <;> simp
  · rfl

/-! ### Failures and cuts -/

@[simp] theorem faultAtLimit_pending (o : FaultOrder) : (faultAtLimit o s).pending = s.pending := by
  unfold faultAtLimit
  split <;> simp

@[simp] theorem failOwn_pending (o : FaultOrder) (need : Need) : (failOwn o need s).pending = s.pending := by simp [failOwn]

@[simp] theorem cutByLine_pending (o : FaultOrder) : (cutByLine o s).pending = s.pending := by
  unfold cutByLine
  split <;> simp

@[simp] theorem startBitRecessive_pending (o : FaultOrder) (driven : Bool) : (startBitRecessive o driven s).pending = s.pending := by
  unfold startBitRecessive
  split
  · rfl
  · split
    · dsimp only
      split
      · split <;> simp
      · rfl
    · exact cutByLine_pending ..

@[simp] theorem falseStart_pending (o : FaultOrder) : (falseStart o s).pending = s.pending := by
  unfold falseStart
  split <;> simp

@[simp] theorem stopError_pending (o : FaultOrder) : (stopError o s).pending = s.pending := by
  unfold stopError
  split <;> simp

@[simp] theorem gapExpiry_pending (o : FaultOrder) : (gapExpiry o s).pending = s.pending := by
  unfold gapExpiry
  split <;> simp

@[simp] theorem lineQuiet_pending : (lineQuiet s).pending = s.pending := by
  unfold lineQuiet
  split <;> rfl

@[simp] theorem lineStuck_pending (o : FaultOrder) : (lineStuck o s).pending = s.pending := by
  unfold lineStuck
  split <;> simp

@[simp] theorem arbitrationLost_pending : (arbitrationLost s).pending = s.pending := by
  unfold arbitrationLost
  split <;> rfl

@[simp] theorem collision_pending (o : FaultOrder) : (collision o s).pending = s.pending := by
  unfold collision
  split <;> simp

@[simp] theorem deadBit_pending (o : FaultOrder) : (deadBit o s).pending = s.pending := by
  unfold deadBit
  split <;> simp

@[simp] theorem driverFailure_pending (o : FaultOrder) : (driverFailure o s).pending = s.pending := by
  unfold driverFailure
  split <;> simp

@[simp] theorem receivedFrameEnd_pending : (receivedFrameEnd s).pending = s.pending := by
  unfold receivedFrameEnd
  split <;> rfl

@[simp] theorem lengthAbove24_pending : (lengthAbove24 s).pending = s.pending := by
  unfold lengthAbove24
  split <;> rfl

/-! ### Acceptance -/

@[simp] theorem atAcceptance_pending : (atAcceptance s).pending = s.pending := rfl

theorem handOn_pending {take hear : State → State × Bool} (htake : (take s).1.pending = s.pending)
    (hhear : (hear s).1.pending = s.pending) : (handOn take hear s).pending = s.pending := by
  unfold handOn
  split
  · dsimp only
    split <;> exact htake
  · split
    · exact hhear
    · rfl

/-- A frame leaves the queue at its acceptance instant, where the block that takes it and the one that hears it in LISTEN do. -/
theorem acceptFrame_pending (kind : FrameKind) (o : FaultOrder) {take hear : Station → List Byte → State → State × Bool}
    (htake : ∀ n payload s, (take n payload s).1.pending = s.pending)
    (hhear : ∀ n payload s, (hear n payload s).1.pending = s.pending) : (acceptFrame kind o take hear s).pending = s.pending := by
  unfold acceptFrame
  split
  · split
    · split
      · simp
      · split
        · exact handOn_pending (atAcceptance s) (htake ..) (hhear ..)
        · rfl
    · rfl
  · rfl

@[simp] theorem acceptUnknown_pending (o : FaultOrder) : (acceptUnknown o s).pending = s.pending := by
  unfold acceptUnknown
  split
  · split
    · split <;> simp
    · rfl
  · rfl

theorem takeNothing_pending (n : Station) (payload : List Byte) (s : State) : (takeNothing n payload s).1.pending = s.pending := rfl

@[simp] theorem syncAccepted_pending (o : FaultOrder) : (syncAccepted o s).pending = s.pending := by
  refine acceptFrame_pending s .sync o (fun n payload s => ?_) (fun n payload s => ?_)
  · unfold takeSync
    split <;> simp
  · unfold hearSync
    split <;> simp

@[simp] theorem leaveAccepted_pending (o : FaultOrder) : (leaveAccepted o s).pending = s.pending :=
  acceptFrame_pending s .leave o (fun n _ s => leaveReceived_pending s n) takeNothing_pending

@[simp] theorem proposeAccepted_pending (o : FaultOrder) : (proposeAccepted o s).pending = s.pending :=
  acceptFrame_pending s .propose o (fun n payload s => memberPropose_pending s n payload) takeNothing_pending

@[simp] theorem commitAccepted_pending (o : FaultOrder) : (commitAccepted o s).pending = s.pending :=
  acceptFrame_pending s .commit o (fun n payload s => memberCommit_pending s s.own n payload) takeNothing_pending

@[simp] theorem cancelAccepted_pending (o : FaultOrder) : (cancelAccepted o s).pending = s.pending :=
  acceptFrame_pending s .cancel o (fun _ _ _ => rfl) takeNothing_pending

@[simp] theorem markAccepted_pending (o : FaultOrder) : (markAccepted o s).pending = s.pending :=
  acceptFrame_pending s .mark o (fun n payload s => memberMark_pending s n payload) takeNothing_pending

/-! ### The commands of the host -/

theorem badCommand_pending : (badCommand s).pending = s.pending := by
  unfold badCommand
  split
  · split <;> rfl
  · rfl

theorem takeCommand_pending (code : Byte) (n : Nat) {owner : List Byte → State → State}
    (howner : ∀ args s, (owner args s).pending = s.pending) (s : State) : (takeCommand code n owner s).pending = s.pending := by
  rcases takeCommand_cases code n owner s with ⟨args, he⟩ | he | he <;> rw [he]
  · exact howner args (clearEnded s)
  · rfl

theorem ownConfigure_pending (a : List Byte) (s : State) : (ownConfigure a s).pending = s.pending := by
  unfold ownConfigure
  split
  · split
    · split <;> rfl
    · rfl
  · rfl

theorem ownStart_pending (a : List Byte) (s : State) : (ownStart a s).pending = s.pending := by
  unfold ownStart
  split
  · rfl
  · split <;> rfl

theorem ownStop_pending (a : List Byte) (s : State) : (ownStop a s).pending = s.pending := by
  unfold ownStop
  split <;> rfl

theorem ownLeave_pending (a : List Byte) (s : State) : (ownLeave a s).pending = s.pending := by
  unfold ownLeave
  split <;> simp

theorem ownReadPeer_pending (a : List Byte) (s : State) : (ownReadPeer a s).pending = s.pending := by
  unfold ownReadPeer
  split <;> rfl

theorem ownReadAction_pending (a : List Byte) (s : State) : (ownReadAction a s).pending = s.pending := by
  unfold ownReadAction
  split
  · split <;> rfl
  · rfl

theorem ownSchedule_pending (a : List Byte) (s : State) : (ownSchedule a s).pending = s.pending := by
  unfold ownSchedule
  split
  · rfl
  · split
    · rfl
    · split
      · rfl
      · split
        · rfl
        · split <;> rfl

theorem ownPropose_pending (a : List Byte) (s : State) : (ownPropose a s).pending = s.pending := by
  have htaken (e : Entry) : (proposeTaken e s).pending = s.pending := by simp [proposeTaken, replyId]
  unfold ownPropose
  split
  · rfl
  · split
    · rfl
    · split
      · rfl
      · split
        · rfl
        · exact htaken _

theorem cancelTaken_pending (e : Entry) (s : State) : (cancelTaken e s).pending = s.pending := by
  have huncommitted : (cancelUncommitted e s).pending = s.pending := by simp [cancelUncommitted]
  have harmed : (cancelArmed e s).pending = s.pending := by
    unfold cancelArmed
    dsimp only
    rw [raiseFor_pending, putEntry_pending]
    split <;> simp
  unfold cancelTaken
  split
  · rfl
  · split
    · exact huncommitted
    · exact huncommitted
    · exact harmed
    · rfl
    · rfl

theorem ownCancel_pending (a : List Byte) (s : State) : (ownCancel a s).pending = s.pending := by
  unfold ownCancel
  split
  · rfl
  · split
    · rfl
    · split
      · rfl
      · split
        · rfl
        · split
          · rfl
          · exact cancelTaken_pending ..

theorem ownTakeReport_pending (a : List Byte) (s : State) : (ownTakeReport a s).pending = s.pending := by
  unfold ownTakeReport
  split <;> rfl

theorem ownTakeCapture_pending (a : List Byte) (s : State) : (ownTakeCapture a s).pending = s.pending := by
  unfold ownTakeCapture
  split <;> rfl

/-- Each outcome of a judgement leaves the queue. -/
theorem hostCommands_pending : ∀ f ∈ hostCommands, ∀ s : State, (f s).pending = s.pending := by
  simp only [hostCommands, List.forall_mem_cons]
  exact ⟨badCommand_pending,
    takeCommand_pending _ _ fun _ _ => rfl,
    takeCommand_pending _ _ ownConfigure_pending,
    takeCommand_pending _ _ ownStart_pending,
    takeCommand_pending _ _ ownStop_pending,
    takeCommand_pending _ _ ownLeave_pending,
    takeCommand_pending _ _ fun _ _ => rfl,
    takeCommand_pending _ _ fun _ _ => rfl,
    takeCommand_pending _ _ ownReadPeer_pending,
    takeCommand_pending _ _ ownReadAction_pending,
    takeCommand_pending _ _ ownPropose_pending,
    takeCommand_pending _ _ ownSchedule_pending,
    takeCommand_pending _ _ ownCancel_pending,
    takeCommand_pending _ _ ownTakeReport_pending,
    takeCommand_pending _ _ ownTakeCapture_pending,
    List.forall_mem_nil _⟩

@[simp] theorem takeTransaction_pending : (takeTransaction s).pending = s.pending :=
  List.foldlRecOn (motive := fun t => t.pending = s.pending) hostCommands _ rfl
    fun t ht f hf => (hostCommands_pending f hf t).trans ht

/-! ### The boundary -/

@[simp] theorem settleFinding_pending : (settleFinding s).pending = s.pending := by
  unfold settleFinding
  split
  · rfl
  · exact frameStart_pending s
  · exact falseStart_pending ..
  · exact arbitrationLost_pending s
  · exact collision_pending ..
  · exact driverFailure_pending ..
  · exact stopError_pending ..
  · exact gapExpiry_pending ..
  · exact checkComplete_pending s
  · exact frameCompleted_pending s
  · exact receivedFrameEnd_pending s
  · exact lengthAbove24_pending s
  · split <;> simp

@[simp] theorem settleDeadlines_pending : (settleDeadlines s).pending = s.pending :=
  (foldl_pending _ followUpDeadline_pending _).trans (foldl_pending s deadlineEvent_pending _)

theorem settleFirings_pending (n : Nat) (s : State) : (settleFirings n s).pending = s.pending := by
  induction n generalizing s with
  | zero => rfl
  | succ n ih => exact (ih (actionDue s)).trans (actionDue_pending s)

@[simp] theorem settleActions_pending : (settleActions s).pending = s.pending :=
  (settleFirings_pending _ _).trans (foldl_pending s pulseEnd_pending allChannels)

/-- The events of a period that are still outstanding at its end, one behind the other. -/
@[simp] theorem settle_pending : (settle s).pending = s.pending := by
  simp [settle, settleCaptures, settleRounds, settleLine]

@[simp] theorem readInputs_pending (pins : Pins) : (readInputs pins s).pending = s.pending := by
  have hcaptures (t : State) : (readCaptures t).pending = t.pending := by
    unfold readCaptures
    split <;> rfl
  have hport (t : State) : (readPort t).pending = t.pending := by
    unfold readPort
    split <;> rfl
  obtain ⟨line, frame, latch, he⟩ := readLine_sameButLine (readPort (readCaptures { s with pins }))
  rw [readInputs, he]
  exact (hport _).trans (hcaptures _)

@[simp] theorem commonTimeAdvance_pending (pins : Pins) : (commonTimeAdvance pins s).pending = s.pending := by
  simp [commonTimeAdvance]

/-! ### Every row -/

/-- Settles O2: each row answers the state that its meaning gives (`exec_powerOnReset` and its like), and no meaning writes the queue. -/
theorem everyCommandCompletes : Obligations.EveryCommandCompletes := by
  intro c s
  have hcommand (f : State → State) (hf : f ∈ hostCommands) : (f s).pending = s.pending := hostCommands_pending f hf s
  simp only [hostCommands, List.forall_mem_cons] at hcommand
  obtain ⟨hbad, hnop, hconfigure, hstart, hstop, hleave, htime, hstatus, hpeer, haction, hpropose, hschedule, hcancel, hreport,
    hcapture, _⟩ := hcommand
  cases c with
  | powerOnReset pins => exact ⟨_, exec_powerOnReset pins s, powerOn_pending s pins⟩
  | resetN pins => exact ⟨_, exec_resetN pins s, powerOn_pending s pins⟩
  | resetNAsserted => exact ⟨_, exec_resetNAsserted s, rfl⟩
  | badCommand => exact ⟨_, exec_badCommand s, hbad⟩
  | nop => exact ⟨_, exec_nop s, hnop⟩
  | configure => exact ⟨_, exec_configure s, hconfigure⟩
  | start => exact ⟨_, exec_start s, hstart⟩
  | stop => exact ⟨_, exec_stop s, hstop⟩
  | leave => exact ⟨_, exec_leave s, hleave⟩
  | readTime => exact ⟨_, exec_readTime s, htime⟩
  | readStatus => exact ⟨_, exec_readStatus s, hstatus⟩
  | readPeer => exact ⟨_, exec_readPeer s, hpeer⟩
  | readAction => exact ⟨_, exec_readAction s, haction⟩
  | propose => exact ⟨_, exec_propose s, hpropose⟩
  | schedule => exact ⟨_, exec_schedule s, hschedule⟩
  | cancel => exact ⟨_, exec_cancel s, hcancel⟩
  | takeReport => exact ⟨_, exec_takeReport s, hreport⟩
  | takeCapture => exact ⟨_, exec_takeCapture s, hcapture⟩
  | lineQuiet => exact ⟨_, exec_lineQuiet s, lineQuiet_pending s⟩
  | lineStuck o => exact ⟨_, exec_lineStuck o s, lineStuck_pending s o⟩
  | access => exact ⟨_, exec_access s, access_pending s⟩
  | frameStart => exact ⟨_, exec_frameStart s, frameStart_pending s⟩
  | falseStart o => exact ⟨_, exec_falseStart o s, falseStart_pending s o⟩
  | stopError o => exact ⟨_, exec_stopError o s, stopError_pending s o⟩
  | gapExpiry o => exact ⟨_, exec_gapExpiry o s, gapExpiry_pending s o⟩
  | arbitrationLost => exact ⟨_, exec_arbitrationLost s, arbitrationLost_pending s⟩
  | collision o => exact ⟨_, exec_collision o s, collision_pending s o⟩
  | driverFailure o => exact ⟨_, exec_driverFailure o s, driverFailure_pending s o⟩
  | checkComplete => exact ⟨_, exec_checkComplete s, checkComplete_pending s⟩
  | frameCompleted => exact ⟨_, exec_frameCompleted s, frameCompleted_pending s⟩
  | receivedFrameEnd => exact ⟨_, exec_receivedFrameEnd s, receivedFrameEnd_pending s⟩
  | lengthAbove24 => exact ⟨_, exec_lengthAbove24 s, lengthAbove24_pending s⟩
  | syncAccepted o => exact ⟨_, exec_syncAccepted o s, syncAccepted_pending s o⟩
  | leaveAccepted o => exact ⟨_, exec_leaveAccepted o s, leaveAccepted_pending s o⟩
  | proposeAccepted o => exact ⟨_, exec_proposeAccepted o s, proposeAccepted_pending s o⟩
  | commitAccepted o => exact ⟨_, exec_commitAccepted o s, commitAccepted_pending s o⟩
  | cancelAccepted o => exact ⟨_, exec_cancelAccepted o s, cancelAccepted_pending s o⟩
  | markAccepted o => exact ⟨_, exec_markAccepted o s, markAccepted_pending s o⟩
  | listenTimeout => exact ⟨_, exec_listenTimeout s, listenTimeout_pending s⟩
  | roundStart => exact ⟨_, exec_roundStart s, roundStart_pending s⟩
  | roundClose o => exact ⟨_, exec_roundClose o s, roundClose_pending s o⟩
  | stepNotice first => exact ⟨_, exec_stepNotice first s, stepNotice_pending s first⟩
  | actionDue => exact ⟨_, exec_actionDue s, actionDue_pending s⟩
  | pulseEnd c => exact ⟨_, exec_pulseEnd c s, pulseEnd_pending s c⟩
  | deadlineEvent id => exact ⟨_, exec_deadlineEvent id s, deadlineEvent_pending s id⟩
  | followUpDeadline id => exact ⟨_, exec_followUpDeadline id s, followUpDeadline_pending s id⟩
  | captureEdge => exact ⟨_, exec_captureEdge s, captureEdge_pending s⟩
  | commonTimeAdvance pins => exact ⟨_, exec_commonTimeAdvance pins s, commonTimeAdvance_pending s pins⟩

end Sys2Proof.Machine
end
